-- ==== Sys2Proof/Word.lean ====
section
/-! DEFINITION. The word types of the engine's registers (R7, R21). -/

namespace Sys2Proof

/-- The contents of a full register, and the width of the host's bus: 128 bits (R6 `OPW`, R21).
A bit pattern of a narrower type stands in the low bits, zero above (R51). -/
abbrev Word := BitVec 128

/-- The command word that a host write to `CMD` carries: 16 bits (R22, R60). -/
abbrev CmdWord := BitVec 16

end Sys2Proof
end

