-- ==== Sys2Proof/Syntax.lean ====
section
/-! DEFINITION. The commands of the engine and the host's operations, as syntax (R60 to R69).
`Instr` has one constructor per row of the opcode table; no row has an operand field, so no constructor has an
argument. `Cmd` is the same command set by operation and type, the form the rules are written in. -/

namespace Sys2Proof

/-- The four floating formats (R62, R80). -/
inductive Fmt where
  | f32 | f64 | x80 | f128
deriving DecidableEq, Repr

/-- The four integer types of the converter (R63, R149). -/
inductive IntType where
  | i32 | u32 | i64 | u64
deriving DecidableEq, Repr

/-- The seven arithmetic operations (R61, `OP` 0x01 to 0x07). -/
inductive ArithOp where
  | add | sub | mul | div | rem | sqrt | fma
deriving DecidableEq, Repr

/-- The six compare operations (R61, `OP` 0x20 to 0x25). -/
inductive CmpOp where
  | eq | eqs | leq | les | ltq | lts
deriving DecidableEq, Repr

/-- A command by operation and types (R61, R67). Two shapes here are no command: a conversion of a format to
itself and a scaled result in `X80` (R66); `Cmd.wellFormed` says so. -/
inductive Cmd where
  /-- arithmetic in one format -/
  | arith (op : ArithOp) (F : Fmt)
  /-- integer type `T` to format `F` -/
  | i2f (T : IntType) (F : Fmt)
  /-- format `F` to integer type `T`, by the rounding mode -/
  | f2i (F : Fmt) (T : IntType)
  /-- format `F` to integer type `T`, truncating -/
  | f2iRmm (F : Fmt) (T : IntType)
  /-- source format `F` to destination format `G` -/
  | f2f (F G : Fmt)
  /-- comparison in one format -/
  | cmp (op : CmpOp) (F : Fmt)
  /-- the signaling-NaN predicate -/
  | issnan (F : Fmt)
  /-- the scaled result of a record of format `F` -/
  | scaled (F : Fmt)
deriving DecidableEq, Repr

/-- The instructions of the engine: the 119 well-formed command words of R67, one constructor per row of the
opcode table, named as the row is. -/
inductive Instr where
  | addF32 | addF64 | addX80 | addF128
  | subF32 | subF64 | subX80 | subF128
  | mulF32 | mulF64 | mulX80 | mulF128
  | divF32 | divF64 | divX80 | divF128
  | remF32 | remF64 | remX80 | remF128
  | sqrtF32 | sqrtF64 | sqrtX80 | sqrtF128
  | fmaF32 | fmaF64 | fmaX80 | fmaF128
  | i2fI32F32 | i2fU32F32 | i2fI64F32 | i2fU64F32 | i2fI32F64 | i2fU32F64 | i2fI64F64 | i2fU64F64 | i2fI32X80
  | i2fU32X80 | i2fI64X80 | i2fU64X80 | i2fI32F128 | i2fU32F128 | i2fI64F128 | i2fU64F128
  | f2iF32I32 | f2iF32U32 | f2iF32I64 | f2iF32U64 | f2iF64I32 | f2iF64U32 | f2iF64I64 | f2iF64U64 | f2iX80I32
  | f2iX80U32 | f2iX80I64 | f2iX80U64 | f2iF128I32 | f2iF128U32 | f2iF128I64 | f2iF128U64
  | f2iRmmF32I32 | f2iRmmF32U32 | f2iRmmF32I64 | f2iRmmF32U64 | f2iRmmF64I32 | f2iRmmF64U32 | f2iRmmF64I64
  | f2iRmmF64U64 | f2iRmmX80I32 | f2iRmmX80U32 | f2iRmmX80I64 | f2iRmmX80U64 | f2iRmmF128I32 | f2iRmmF128U32
  | f2iRmmF128I64 | f2iRmmF128U64
  | f2fF32F64 | f2fF32X80 | f2fF32F128 | f2fF64F32 | f2fF64X80 | f2fF64F128 | f2fX80F32 | f2fX80F64
  | f2fX80F128 | f2fF128F32 | f2fF128F64 | f2fF128X80
  | eqF32 | eqF64 | eqX80 | eqF128
  | eqsF32 | eqsF64 | eqsX80 | eqsF128
  | leqF32 | leqF64 | leqX80 | leqF128
  | lesF32 | lesF64 | lesX80 | lesF128
  | ltqF32 | ltqF64 | ltqX80 | ltqF128
  | ltsF32 | ltsF64 | ltsX80 | ltsF128
  | issnanF32 | issnanF64 | issnanX80 | issnanF128
  | scaledF32 | scaledF64 | scaledF128
deriving DecidableEq, Repr

/-- The fields of a command word (R60). -/
structure CmdFields where
  /-- bits 15:12, must be 0 -/
  zero : BitVec 4
  /-- bits 11:10, the second type -/
  aux : BitVec 2
  /-- bits 9:8, the floating format -/
  fmt : BitVec 2
  /-- bits 7:0, the operation -/
  op : BitVec 8
deriving DecidableEq, Repr

/-- What the outside does to one engine instance: a host write or read of a register by number (R68), or the reset
event (R220). A command is a write to register 0. -/
inductive HostOp where
  /-- the host writes `value` to register number `reg` -/
  | wr (reg : Nat) (value : Word)
  /-- the host reads register number `reg` -/
  | rd (reg : Nat)
  /-- the reset input of the instance -/
  | reset
deriving DecidableEq, Repr

end Sys2Proof
end

