-- ==== Sys2Proof/Config.lean ====
section
/-! DEFINITION. The open parameters of the engine (R6) and the free values of the model. None has a body: whatever is
proved holds for every value of them. -/

namespace Sys2Proof

/-- Why a float to integer conversion has no integer to deliver (R156). -/
inductive InvalidKind where
  | posOverflow | negOverflow | nan
deriving DecidableEq, Repr

/-- `TININESS_RESET` (R6, R34): the value of `TP` after reset, OPEN in the spec. DEDUCED
(log entry 5). -/
opaque Config.tininessReset : BitVec 1

/-- `IntInvalid(T, kind)` (R6, R156): the integer an invalid float to integer conversion delivers, OPEN in the spec. The
low 32 or 64 bits are delivered, as `T` is wide. DEDUCED; that one function serves every instance is a DESIGN CHOICE,
unsafe (log entry 6). -/
opaque Config.intInvalid : IntType → InvalidKind → BitVec 64

/-- The value drawn when the host reads a register of the record while the record is invalid (R29, item U8: "any
value"). The argument counts the draws of an instance's run, so that each read may give another value. DESIGN CHOICE,
unsafe: two instances, or two runs, whose counts are equal draw the same value, which the spec does not say (log
entry 2). -/
opaque Config.freeRead : Nat → Word

/-- `N_INSTANCES` less one (R6, R207): OPEN in the spec, and at least one instance exists. DESIGN CHOICE
(log entry 7). -/
opaque Config.extraInstances : Nat

/-- `N_INSTANCES` (R6, R207). -/
def Config.nInstances : Nat := Config.extraInstances + 1

end Sys2Proof
end

