-- ==== Sys2Proof/WellFormed.lean ====
section
/-! DEFINITION. Which commands and command words are well formed (R66), and which host operations name a register that
exists (R21). Every constructor of `Instr` is a well-formed command by construction. -/

namespace Sys2Proof

/-- A command of the engine: not a conversion of a format to itself, and not a scaled result in `X80` (R66). -/
def Cmd.wellFormed : Cmd → Bool
  | .f2f F G => F != G
  | .scaled F => F != .x80
  | .arith _ _ => true
  | .i2f _ _ => true
  | .f2i _ _ => true
  | .f2iRmm _ _ => true
  | .cmp _ _ => true
  | .issnan _ => true

/-- `OP` is one of the values R61 lists. -/
def CmdFields.opKnown (f : CmdFields) : Bool :=
  let op := f.op.toNat
  (0x01 ≤ op && op ≤ 0x07) || (0x10 ≤ op && op ≤ 0x13) || (0x20 ≤ op && op ≤ 0x26) || op == 0x30

/-- `OP` is one of `I2F`, `F2I`, `F2I_RMM`, `F2F`, the operations that use `AUX` (R60). -/
def CmdFields.usesAux (f : CmdFields) : Bool :=
  0x10 ≤ f.op.toNat && f.op.toNat ≤ 0x13

/-- The five conditions of R66 on a command word, by its fields. -/
def CmdFields.wellFormed (f : CmdFields) : Bool :=
  f.zero == 0#4 &&
  f.opKnown &&
  (f.usesAux || f.aux == 0#2) &&
  (f.op != 0x13#8 || f.aux != f.fmt) &&
  (f.op != 0x30#8 || f.fmt != 2#2)

/-- A host operation names a register of R21 (0 to 10). -/
def HostOp.wellFormed : HostOp → Bool
  | .wr reg _ => reg ≤ 10
  | .rd reg => reg ≤ 10
  | .reset => true

end Sys2Proof
end

