-- ==== Sys2Proof/Decode.lean ====
section
/-! DEFINITION. The command word's decoder, total on all 65536 words and rejecting by name (R60 to R66), and after it the
encoder, from the same tables of R61, R62, R63 and R67. -/

namespace Sys2Proof

/-- The operation and types of each instruction, row by row of the opcode table (R67). -/
def Instr.toCmd : Instr → Cmd
  | .addF32 => .arith .add .f32
  | .addF64 => .arith .add .f64
  | .addX80 => .arith .add .x80
  | .addF128 => .arith .add .f128
  | .subF32 => .arith .sub .f32
  | .subF64 => .arith .sub .f64
  | .subX80 => .arith .sub .x80
  | .subF128 => .arith .sub .f128
  | .mulF32 => .arith .mul .f32
  | .mulF64 => .arith .mul .f64
  | .mulX80 => .arith .mul .x80
  | .mulF128 => .arith .mul .f128
  | .divF32 => .arith .div .f32
  | .divF64 => .arith .div .f64
  | .divX80 => .arith .div .x80
  | .divF128 => .arith .div .f128
  | .remF32 => .arith .rem .f32
  | .remF64 => .arith .rem .f64
  | .remX80 => .arith .rem .x80
  | .remF128 => .arith .rem .f128
  | .sqrtF32 => .arith .sqrt .f32
  | .sqrtF64 => .arith .sqrt .f64
  | .sqrtX80 => .arith .sqrt .x80
  | .sqrtF128 => .arith .sqrt .f128
  | .fmaF32 => .arith .fma .f32
  | .fmaF64 => .arith .fma .f64
  | .fmaX80 => .arith .fma .x80
  | .fmaF128 => .arith .fma .f128
  | .i2fI32F32 => .i2f .i32 .f32
  | .i2fU32F32 => .i2f .u32 .f32
  | .i2fI64F32 => .i2f .i64 .f32
  | .i2fU64F32 => .i2f .u64 .f32
  | .i2fI32F64 => .i2f .i32 .f64
  | .i2fU32F64 => .i2f .u32 .f64
  | .i2fI64F64 => .i2f .i64 .f64
  | .i2fU64F64 => .i2f .u64 .f64
  | .i2fI32X80 => .i2f .i32 .x80
  | .i2fU32X80 => .i2f .u32 .x80
  | .i2fI64X80 => .i2f .i64 .x80
  | .i2fU64X80 => .i2f .u64 .x80
  | .i2fI32F128 => .i2f .i32 .f128
  | .i2fU32F128 => .i2f .u32 .f128
  | .i2fI64F128 => .i2f .i64 .f128
  | .i2fU64F128 => .i2f .u64 .f128
  | .f2iF32I32 => .f2i .f32 .i32
  | .f2iF32U32 => .f2i .f32 .u32
  | .f2iF32I64 => .f2i .f32 .i64
  | .f2iF32U64 => .f2i .f32 .u64
  | .f2iF64I32 => .f2i .f64 .i32
  | .f2iF64U32 => .f2i .f64 .u32
  | .f2iF64I64 => .f2i .f64 .i64
  | .f2iF64U64 => .f2i .f64 .u64
  | .f2iX80I32 => .f2i .x80 .i32
  | .f2iX80U32 => .f2i .x80 .u32
  | .f2iX80I64 => .f2i .x80 .i64
  | .f2iX80U64 => .f2i .x80 .u64
  | .f2iF128I32 => .f2i .f128 .i32
  | .f2iF128U32 => .f2i .f128 .u32
  | .f2iF128I64 => .f2i .f128 .i64
  | .f2iF128U64 => .f2i .f128 .u64
  | .f2iRmmF32I32 => .f2iRmm .f32 .i32
  | .f2iRmmF32U32 => .f2iRmm .f32 .u32
  | .f2iRmmF32I64 => .f2iRmm .f32 .i64
  | .f2iRmmF32U64 => .f2iRmm .f32 .u64
  | .f2iRmmF64I32 => .f2iRmm .f64 .i32
  | .f2iRmmF64U32 => .f2iRmm .f64 .u32
  | .f2iRmmF64I64 => .f2iRmm .f64 .i64
  | .f2iRmmF64U64 => .f2iRmm .f64 .u64
  | .f2iRmmX80I32 => .f2iRmm .x80 .i32
  | .f2iRmmX80U32 => .f2iRmm .x80 .u32
  | .f2iRmmX80I64 => .f2iRmm .x80 .i64
  | .f2iRmmX80U64 => .f2iRmm .x80 .u64
  | .f2iRmmF128I32 => .f2iRmm .f128 .i32
  | .f2iRmmF128U32 => .f2iRmm .f128 .u32
  | .f2iRmmF128I64 => .f2iRmm .f128 .i64
  | .f2iRmmF128U64 => .f2iRmm .f128 .u64
  | .f2fF32F64 => .f2f .f32 .f64
  | .f2fF32X80 => .f2f .f32 .x80
  | .f2fF32F128 => .f2f .f32 .f128
  | .f2fF64F32 => .f2f .f64 .f32
  | .f2fF64X80 => .f2f .f64 .x80
  | .f2fF64F128 => .f2f .f64 .f128
  | .f2fX80F32 => .f2f .x80 .f32
  | .f2fX80F64 => .f2f .x80 .f64
  | .f2fX80F128 => .f2f .x80 .f128
  | .f2fF128F32 => .f2f .f128 .f32
  | .f2fF128F64 => .f2f .f128 .f64
  | .f2fF128X80 => .f2f .f128 .x80
  | .eqF32 => .cmp .eq .f32
  | .eqF64 => .cmp .eq .f64
  | .eqX80 => .cmp .eq .x80
  | .eqF128 => .cmp .eq .f128
  | .eqsF32 => .cmp .eqs .f32
  | .eqsF64 => .cmp .eqs .f64
  | .eqsX80 => .cmp .eqs .x80
  | .eqsF128 => .cmp .eqs .f128
  | .leqF32 => .cmp .leq .f32
  | .leqF64 => .cmp .leq .f64
  | .leqX80 => .cmp .leq .x80
  | .leqF128 => .cmp .leq .f128
  | .lesF32 => .cmp .les .f32
  | .lesF64 => .cmp .les .f64
  | .lesX80 => .cmp .les .x80
  | .lesF128 => .cmp .les .f128
  | .ltqF32 => .cmp .ltq .f32
  | .ltqF64 => .cmp .ltq .f64
  | .ltqX80 => .cmp .ltq .x80
  | .ltqF128 => .cmp .ltq .f128
  | .ltsF32 => .cmp .lts .f32
  | .ltsF64 => .cmp .lts .f64
  | .ltsX80 => .cmp .lts .x80
  | .ltsF128 => .cmp .lts .f128
  | .issnanF32 => .issnan .f32
  | .issnanF64 => .issnan .f64
  | .issnanX80 => .issnan .x80
  | .issnanF128 => .issnan .f128
  | .scaledF32 => .scaled .f32
  | .scaledF64 => .scaled .f64
  | .scaledF128 => .scaled .f128

/-- An instruction is well formed when its command is (R66); every constructor is. -/
def Instr.wellFormed (i : Instr) : Bool := i.toCmd.wellFormed

/-- Why a word is no command (R66). The host must never write one. DESIGN CHOICE: R66 and item U1 know one refusal, without
reasons; the reasons and their names are the model's (log entry 18). -/
inductive Reject where
  /-- the field `ZERO` is not 0 -/
  | zeroFieldNotZero
  /-- `OP` is no value of R61 -/
  | unknownOp
  /-- `AUX` is not 0 for an operation that has no second type -/
  | auxNotZero
  /-- `F2F` from a format to itself -/
  | sameFormat
  /-- `SCALED` with `FMT = 2` -/
  | noScaledX80
deriving DecidableEq, Repr

/-- The fields of a command word (R60). -/
def CmdFields.ofWord (w : CmdWord) : CmdFields where
  zero := w.extractLsb' 12 4
  aux := w.extractLsb' 10 2
  fmt := w.extractLsb' 8 2
  op := w.extractLsb' 0 8

/-- The floating format of a code (R62). -/
def Fmt.ofCode (c : BitVec 2) : Fmt :=
  match c.toNat with
  | 0 => .f32
  | 1 => .f64
  | 2 => .x80
  | _ => .f128

/-- The integer type of a code (R63). -/
def IntType.ofCode (c : BitVec 2) : IntType :=
  match c.toNat with
  | 0 => .i32
  | 1 => .u32
  | 2 => .i64
  | _ => .u64

/-- A command whose `AUX` must be 0 (R60). -/
def CmdFields.withoutAux (f : CmdFields) (c : Cmd) : Except Reject Cmd :=
  if f.aux = 0#2 then .ok c else .error .auxNotZero

/-- The command the fields name (R60 to R63): the operation by R61, then the types by the operation's use of `FMT` and
`AUX`. DESIGN CHOICE: of a word that breaks several conditions of R66 the reason named is the first of `ZERO`, `OP`, `AUX`, and
only then the two of `Instr.ofCmd` (log entry 18). -/
def Cmd.ofFields (f : CmdFields) : Except Reject Cmd :=
  if f.zero = 0#4 then
    match f.op.toNat with
    | 0x01 => f.withoutAux (.arith .add (.ofCode f.fmt))
    | 0x02 => f.withoutAux (.arith .sub (.ofCode f.fmt))
    | 0x03 => f.withoutAux (.arith .mul (.ofCode f.fmt))
    | 0x04 => f.withoutAux (.arith .div (.ofCode f.fmt))
    | 0x05 => f.withoutAux (.arith .rem (.ofCode f.fmt))
    | 0x06 => f.withoutAux (.arith .sqrt (.ofCode f.fmt))
    | 0x07 => f.withoutAux (.arith .fma (.ofCode f.fmt))
    | 0x10 => .ok (.i2f (.ofCode f.aux) (.ofCode f.fmt))
    | 0x11 => .ok (.f2i (.ofCode f.fmt) (.ofCode f.aux))
    | 0x12 => .ok (.f2iRmm (.ofCode f.fmt) (.ofCode f.aux))
    | 0x13 => .ok (.f2f (.ofCode f.fmt) (.ofCode f.aux))
    | 0x20 => f.withoutAux (.cmp .eq (.ofCode f.fmt))
    | 0x21 => f.withoutAux (.cmp .eqs (.ofCode f.fmt))
    | 0x22 => f.withoutAux (.cmp .leq (.ofCode f.fmt))
    | 0x23 => f.withoutAux (.cmp .les (.ofCode f.fmt))
    | 0x24 => f.withoutAux (.cmp .ltq (.ofCode f.fmt))
    | 0x25 => f.withoutAux (.cmp .lts (.ofCode f.fmt))
    | 0x26 => f.withoutAux (.issnan (.ofCode f.fmt))
    | 0x30 => f.withoutAux (.scaled (.ofCode f.fmt))
    | _ => .error .unknownOp
  else .error .zeroFieldNotZero

/-- The instruction of a command; the two shapes that are no command are rejected by name (R66), after every other
reason (log entry 18). -/
def Instr.ofCmd : Cmd → Except Reject Instr
  | .arith .add .f32 => .ok .addF32
  | .arith .add .f64 => .ok .addF64
  | .arith .add .x80 => .ok .addX80
  | .arith .add .f128 => .ok .addF128
  | .arith .sub .f32 => .ok .subF32
  | .arith .sub .f64 => .ok .subF64
  | .arith .sub .x80 => .ok .subX80
  | .arith .sub .f128 => .ok .subF128
  | .arith .mul .f32 => .ok .mulF32
  | .arith .mul .f64 => .ok .mulF64
  | .arith .mul .x80 => .ok .mulX80
  | .arith .mul .f128 => .ok .mulF128
  | .arith .div .f32 => .ok .divF32
  | .arith .div .f64 => .ok .divF64
  | .arith .div .x80 => .ok .divX80
  | .arith .div .f128 => .ok .divF128
  | .arith .rem .f32 => .ok .remF32
  | .arith .rem .f64 => .ok .remF64
  | .arith .rem .x80 => .ok .remX80
  | .arith .rem .f128 => .ok .remF128
  | .arith .sqrt .f32 => .ok .sqrtF32
  | .arith .sqrt .f64 => .ok .sqrtF64
  | .arith .sqrt .x80 => .ok .sqrtX80
  | .arith .sqrt .f128 => .ok .sqrtF128
  | .arith .fma .f32 => .ok .fmaF32
  | .arith .fma .f64 => .ok .fmaF64
  | .arith .fma .x80 => .ok .fmaX80
  | .arith .fma .f128 => .ok .fmaF128
  | .i2f .i32 .f32 => .ok .i2fI32F32
  | .i2f .u32 .f32 => .ok .i2fU32F32
  | .i2f .i64 .f32 => .ok .i2fI64F32
  | .i2f .u64 .f32 => .ok .i2fU64F32
  | .i2f .i32 .f64 => .ok .i2fI32F64
  | .i2f .u32 .f64 => .ok .i2fU32F64
  | .i2f .i64 .f64 => .ok .i2fI64F64
  | .i2f .u64 .f64 => .ok .i2fU64F64
  | .i2f .i32 .x80 => .ok .i2fI32X80
  | .i2f .u32 .x80 => .ok .i2fU32X80
  | .i2f .i64 .x80 => .ok .i2fI64X80
  | .i2f .u64 .x80 => .ok .i2fU64X80
  | .i2f .i32 .f128 => .ok .i2fI32F128
  | .i2f .u32 .f128 => .ok .i2fU32F128
  | .i2f .i64 .f128 => .ok .i2fI64F128
  | .i2f .u64 .f128 => .ok .i2fU64F128
  | .f2i .f32 .i32 => .ok .f2iF32I32
  | .f2i .f32 .u32 => .ok .f2iF32U32
  | .f2i .f32 .i64 => .ok .f2iF32I64
  | .f2i .f32 .u64 => .ok .f2iF32U64
  | .f2i .f64 .i32 => .ok .f2iF64I32
  | .f2i .f64 .u32 => .ok .f2iF64U32
  | .f2i .f64 .i64 => .ok .f2iF64I64
  | .f2i .f64 .u64 => .ok .f2iF64U64
  | .f2i .x80 .i32 => .ok .f2iX80I32
  | .f2i .x80 .u32 => .ok .f2iX80U32
  | .f2i .x80 .i64 => .ok .f2iX80I64
  | .f2i .x80 .u64 => .ok .f2iX80U64
  | .f2i .f128 .i32 => .ok .f2iF128I32
  | .f2i .f128 .u32 => .ok .f2iF128U32
  | .f2i .f128 .i64 => .ok .f2iF128I64
  | .f2i .f128 .u64 => .ok .f2iF128U64
  | .f2iRmm .f32 .i32 => .ok .f2iRmmF32I32
  | .f2iRmm .f32 .u32 => .ok .f2iRmmF32U32
  | .f2iRmm .f32 .i64 => .ok .f2iRmmF32I64
  | .f2iRmm .f32 .u64 => .ok .f2iRmmF32U64
  | .f2iRmm .f64 .i32 => .ok .f2iRmmF64I32
  | .f2iRmm .f64 .u32 => .ok .f2iRmmF64U32
  | .f2iRmm .f64 .i64 => .ok .f2iRmmF64I64
  | .f2iRmm .f64 .u64 => .ok .f2iRmmF64U64
  | .f2iRmm .x80 .i32 => .ok .f2iRmmX80I32
  | .f2iRmm .x80 .u32 => .ok .f2iRmmX80U32
  | .f2iRmm .x80 .i64 => .ok .f2iRmmX80I64
  | .f2iRmm .x80 .u64 => .ok .f2iRmmX80U64
  | .f2iRmm .f128 .i32 => .ok .f2iRmmF128I32
  | .f2iRmm .f128 .u32 => .ok .f2iRmmF128U32
  | .f2iRmm .f128 .i64 => .ok .f2iRmmF128I64
  | .f2iRmm .f128 .u64 => .ok .f2iRmmF128U64
  | .f2f .f32 .f64 => .ok .f2fF32F64
  | .f2f .f32 .x80 => .ok .f2fF32X80
  | .f2f .f32 .f128 => .ok .f2fF32F128
  | .f2f .f64 .f32 => .ok .f2fF64F32
  | .f2f .f64 .x80 => .ok .f2fF64X80
  | .f2f .f64 .f128 => .ok .f2fF64F128
  | .f2f .x80 .f32 => .ok .f2fX80F32
  | .f2f .x80 .f64 => .ok .f2fX80F64
  | .f2f .x80 .f128 => .ok .f2fX80F128
  | .f2f .f128 .f32 => .ok .f2fF128F32
  | .f2f .f128 .f64 => .ok .f2fF128F64
  | .f2f .f128 .x80 => .ok .f2fF128X80
  | .cmp .eq .f32 => .ok .eqF32
  | .cmp .eq .f64 => .ok .eqF64
  | .cmp .eq .x80 => .ok .eqX80
  | .cmp .eq .f128 => .ok .eqF128
  | .cmp .eqs .f32 => .ok .eqsF32
  | .cmp .eqs .f64 => .ok .eqsF64
  | .cmp .eqs .x80 => .ok .eqsX80
  | .cmp .eqs .f128 => .ok .eqsF128
  | .cmp .leq .f32 => .ok .leqF32
  | .cmp .leq .f64 => .ok .leqF64
  | .cmp .leq .x80 => .ok .leqX80
  | .cmp .leq .f128 => .ok .leqF128
  | .cmp .les .f32 => .ok .lesF32
  | .cmp .les .f64 => .ok .lesF64
  | .cmp .les .x80 => .ok .lesX80
  | .cmp .les .f128 => .ok .lesF128
  | .cmp .ltq .f32 => .ok .ltqF32
  | .cmp .ltq .f64 => .ok .ltqF64
  | .cmp .ltq .x80 => .ok .ltqX80
  | .cmp .ltq .f128 => .ok .ltqF128
  | .cmp .lts .f32 => .ok .ltsF32
  | .cmp .lts .f64 => .ok .ltsF64
  | .cmp .lts .x80 => .ok .ltsX80
  | .cmp .lts .f128 => .ok .ltsF128
  | .issnan .f32 => .ok .issnanF32
  | .issnan .f64 => .ok .issnanF64
  | .issnan .x80 => .ok .issnanX80
  | .issnan .f128 => .ok .issnanF128
  | .scaled .f32 => .ok .scaledF32
  | .scaled .f64 => .ok .scaledF64
  | .scaled .f128 => .ok .scaledF128
  | .f2f .f32 .f32 => .error .sameFormat
  | .f2f .f64 .f64 => .error .sameFormat
  | .f2f .x80 .x80 => .error .sameFormat
  | .f2f .f128 .f128 => .error .sameFormat
  | .scaled .x80 => .error .noScaledX80

/-- The command a field assignment names, as an instruction. -/
def Instr.ofFields (f : CmdFields) : Except Reject Instr :=
  match Cmd.ofFields f with
  | .ok c => Instr.ofCmd c
  | .error r => .error r

/-- The decoder of a word written to `CMD` (R22, R60). -/
def decode (w : CmdWord) : Except Reject Instr :=
  Instr.ofFields (CmdFields.ofWord w)

/-- The code of a floating format (R62). -/
def Fmt.code : Fmt → BitVec 2
  | .f32 => 0#2
  | .f64 => 1#2
  | .x80 => 2#2
  | .f128 => 3#2

/-- The code of an integer type (R63). -/
def IntType.code : IntType → BitVec 2
  | .i32 => 0#2
  | .u32 => 1#2
  | .i64 => 2#2
  | .u64 => 3#2

/-- `OP` of an arithmetic operation (R61). -/
def ArithOp.code : ArithOp → BitVec 8
  | .add => 0x01#8
  | .sub => 0x02#8
  | .mul => 0x03#8
  | .div => 0x04#8
  | .rem => 0x05#8
  | .sqrt => 0x06#8
  | .fma => 0x07#8

/-- `OP` of a compare operation (R61). -/
def CmpOp.code : CmpOp → BitVec 8
  | .eq => 0x20#8
  | .eqs => 0x21#8
  | .leq => 0x22#8
  | .les => 0x23#8
  | .ltq => 0x24#8
  | .lts => 0x25#8

/-- The fields of a command's word (R60, R67). -/
def Cmd.toFields : Cmd → CmdFields
  | .arith op F => ⟨0#4, 0#2, F.code, op.code⟩
  | .i2f T F => ⟨0#4, T.code, F.code, 0x10#8⟩
  | .f2i F T => ⟨0#4, T.code, F.code, 0x11#8⟩
  | .f2iRmm F T => ⟨0#4, T.code, F.code, 0x12#8⟩
  | .f2f F G => ⟨0#4, G.code, F.code, 0x13#8⟩
  | .cmp op F => ⟨0#4, 0#2, F.code, op.code⟩
  | .issnan F => ⟨0#4, 0#2, F.code, 0x26#8⟩
  | .scaled F => ⟨0#4, 0#2, F.code, 0x30#8⟩

/-- The word of a field assignment, the fields from bit 15 down (R60). -/
def CmdFields.toWord (f : CmdFields) : CmdWord := f.zero ++ f.aux ++ f.fmt ++ f.op

/-- The command word of an instruction (R67). -/
def encode (i : Instr) : CmdWord := i.toCmd.toFields.toWord

/-- The instruction the decoder reads from an instruction whose bits are `w`, numbered as the opcode table numbers
them: a command is one word, so bit 0 of `w` is bit 0 of the word. The bits above `nbits` are 0, and the bits above the
16 of `CMD` are ignored as on a write (R21, R22). -/
def decodeTableWord (nbits w : Nat) : Option Instr :=
  match decode (BitVec.ofNat 16 (w % 2 ^ nbits)) with
  | .ok i => some i
  | .error _ => none

end Sys2Proof
end

