-- ==== Sys2Proof/Machine/State.lean ====
section
/-! DEFINITION. The state of one engine instance (R20 to R29), the ways a step can stop, and the state after reset (R34,
R220). The last three fields of `State` are the model's own. -/

namespace Sys2Proof.Machine

/-- A 128-bit operand or result register with the mark R220 gives it: `written` is false from reset to the first write,
and while it is false the register "holds no value" that anything may read (R35). -/
structure MarkedReg where
  val : Word
  written : Bool
deriving DecidableEq, Repr

/-- The scaled-result record `RAW` (R28). -/
structure Raw where
  /-- `RAW.Valid`: the record holds the outcome of the last command -/
  valid : Bool
  /-- `RAW.Fmt`, two bits, all four codes defined (R62) -/
  fmt : Fmt
  /-- `RAW.Sign` -/
  sign : Bool
  /-- `RAW.Inexact` -/
  inexact : Bool
  /-- `RAW.Incre` -/
  incre : Bool
  /-- `RAW.Tiny` -/
  tiny : Bool
  /-- `RAW.Exp`, signed -/
  exp : BitVec 32
  /-- `RAW.Sig`, the significand's value times `2^126` -/
  sig : Word
deriving DecidableEq, Repr

/-- The state of one engine instance and of its host's side of the register port. `CMD` holds nothing (R22). -/
structure State where
  /-- `RM`, the rounding mode (R23) -/
  rm : BitVec 3
  /-- `TP`, the tininess policy: 0 before rounding, 1 after (R24) -/
  tp : BitVec 1
  /-- `FLAGS`, the exception-flag accumulator (R25) -/
  flags : BitVec 7
  /-- `OPA` (R26) -/
  opa : MarkedReg
  /-- `OPB` (R26) -/
  opb : MarkedReg
  /-- `OPC` (R26) -/
  opc : MarkedReg
  /-- `RES` (R27) -/
  res : MarkedReg
  /-- `RAW` (R28) -/
  raw : Raw
  /-- the host operations still to come, next first (R31, R58) -/
  host : List HostOp
  /-- the values the host has read, latest first (R68) -/
  reads : List Word
  /-- how many free values have been drawn (R29) -/
  draws : Nat
deriving DecidableEq, Repr

/-- The reasons a step ends in a fault: none. "the engine has no fault mechanism" (93, Part 1; R200; log entry 14), so the
type has no constructor and `exec` and `step` never answer `fault`. -/
inductive Fault where
deriving DecidableEq, Repr

/-- The reasons a step is refused: the hardware's forms of misuse (R209), each safe, since the model stops where the spec
gives no meaning. -/
inductive Refusal where
  /-- Raised by `exec` for an instruction that has no meaning yet: none is left. Safe. -/
  | notModelled (mnemonic : String)
  /-- Raised by a host write to `CMD` of a reserved word (R66, item U1). Safe. -/
  | reservedCommand (why : Reject)
  /-- Raised by a command that uses `RM` while `RM` is 6 or 7 (R23, item U2). Safe. -/
  | reservedRoundingMode
  /-- Raised by a command with a non-canonical `X80` operand (R85, item U3). Safe. -/
  | nonCanonicalOperand
  /-- Raised by a command that reads an operand register never written: R35, "A command that reads such a register is
refused" (R209, D26, item U4). Safe. -/
  | unwrittenOperand
  /-- Raised by a host read of an operand register never written, or of `RES` before the first command: R35, "and so are
  a host read of such a register and a host read of `RES` before the first command" (R220, D26, item U4). Safe. -/
  | unwrittenRead
  /-- Raised by `SCALED` while `RAW.Valid` is 0 (R187 (a), item U5). Safe. -/
  | noRecord
  /-- Raised by `SCALED` while `RAW.Fmt` is another format (R187 (a), item U5). Safe. -/
  | recordFormatMismatch
  /-- Raised by `SCALED` when the scaled exponent is no normal exponent of the format (R187 (b), item U6). Safe. -/
  | scaledExponentOutOfRange
  /-- Raised by a host write to `RES`, `RAW_SIG`, `RAW_EXP` or `RAW_ATTR` (R21, R27, R29, item U7). Safe. -/
  | readOnlyRegister
  /-- Raised by a host read of `CMD` (R22, item U7). Safe. -/
  | writeOnlyRegister
  /-- Raised by a host access to register number 11 or above (R21, item U7). Safe. -/
  | noSuchRegister
  /-- Raised by `System.stepAt` for an index that names no instance (R207). Safe. -/
  | noSuchInstance
deriving DecidableEq, Repr

/-- The state after reset (R34, R220). `RM`, `FLAGS` and `RAW.Valid` are the spec's; `TP` is its open parameter; the
marks are the spec's *unwritten*. DESIGN CHOICE (log entry 1): the contents the spec leaves unspecified are 0, and the
model's own fields start empty. -/
def State.reset : State where
  rm := 0#3
  tp := Config.tininessReset
  flags := 0#7
  opa := ⟨0#128, false⟩
  opb := ⟨0#128, false⟩
  opc := ⟨0#128, false⟩
  res := ⟨0#128, false⟩
  raw := ⟨false, .f32, false, false, false, false, 0#32, 0#128⟩
  host := []
  reads := []
  draws := 0

end Sys2Proof.Machine
end

