-- ==== Sys2Proof/Machine/Flags.lean ====
section
/-! DEFINITION. The flag bits and sets (R25), the rounding modes (R23), and the flag computations that depend on nothing
but a mode and signs: which overflow result a mode delivers (R106) and the sign of an exact zero sum (R128). -/

namespace Sys2Proof.Machine

/-- The seven exception flags (R10, R25). -/
inductive Flag where
  | inexact | underflow | overflow | infinite | invalid | incremented | tiny
deriving DecidableEq, Repr

/-- The bit of `FLAGS` a flag is (R25). -/
def Flag.bit : Flag → Nat
  | .inexact => 0
  | .underflow => 1
  | .overflow => 2
  | .infinite => 3
  | .invalid => 4
  | .incremented => 5
  | .tiny => 6

/-- The set of one flag (R25, column Mask). -/
def Flag.mask (f : Flag) : BitVec 7 := 1#7 <<< f.bit

/-- `raise f` when the condition holds (R9): the flags a command collects are one set, OR-ed into `FLAGS` at its end. -/
def raiseIf (cond : Bool) (f : Flag) : BitVec 7 := if cond then f.mask else 0#7

/-- The six rounding modes (R10, R23). -/
inductive RMode where
  | ne | minmag | min | max | nmm | stk
deriving DecidableEq, Repr

/-- The mode a value of `RM` names; 6 and 7 are reserved (R23). -/
def RMode.ofBits (rm : BitVec 3) : Option RMode :=
  match rm.toNat with
  | 0 => some .ne
  | 1 => some .minmag
  | 2 => some .min
  | 3 => some .max
  | 4 => some .nmm
  | 5 => some .stk
  | _ => none

/-- On overflow the mode delivers an infinity rather than the format's largest finite value (R106). -/
def RMode.overflowsToInf (m : RMode) (sign : Bool) : Bool :=
  match m with
  | .ne => true
  | .minmag => false
  | .min => sign
  | .max => !sign
  | .nmm => true
  | .stk => false

/-- `ZeroSumSign` (R128): the sign of an exact zero sum of terms of signs `s1` and `s2`. -/
def zeroSumSign (m : RMode) (s1 s2 : Bool) : Bool :=
  if s1 = s2 then s1 else m == .min

end Sys2Proof.Machine
end

