-- ==== Sys2Proof/Machine/Format.lean ====
section
/-! DEFINITION. The four value formats: parameters (R80), layouts (R81, R82), classification and exact value (R83 to R86),
packing (R87) and the NaN rules all operations share (R88 to R90). A pattern of a `k`-bit format is a `Word` whose bits
above `k` are 0 (R51). -/

namespace Sys2Proof

/-- `k`: total bits (R80). -/
def Fmt.k : Fmt → Nat
  | .f32 => 32
  | .f64 => 64
  | .x80 => 80
  | .f128 => 128

/-- `w`: exponent-field bits (R80). -/
def Fmt.w : Fmt → Nat
  | .f32 => 8
  | .f64 => 11
  | .x80 => 15
  | .f128 => 15

/-- `p`: precision, the significand bits of a normal value with the leading one (R80). -/
def Fmt.p : Fmt → Nat
  | .f32 => 24
  | .f64 => 53
  | .x80 => 64
  | .f128 => 113

/-- `t`: stored trailing-fraction bits (R80). -/
def Fmt.t : Fmt → Nat
  | .f32 => 23
  | .f64 => 52
  | .x80 => 63
  | .f128 => 112

/-- The stored bits below the exponent field: the fraction, and for `X80` the explicit integer bit too (R81, R82). -/
def Fmt.sigW : Fmt → Nat
  | .f32 => 23
  | .f64 => 52
  | .x80 => 64
  | .f128 => 112

/-- `bias` (R80). -/
def Fmt.bias : Fmt → Nat
  | .f32 => 127
  | .f64 => 1023
  | .x80 => 16383
  | .f128 => 16383

/-- `emax = bias` (R80). -/
def Fmt.emax (F : Fmt) : Int := F.bias

/-- `emin = 1 - bias` (R80). -/
def Fmt.emin (F : Fmt) : Int := 1 - (F.bias : Int)

/-- `EXPMAX = 2^w - 1`, the all-ones exponent field (R80). -/
def Fmt.expMax (F : Fmt) : Nat := 2 ^ F.w - 1

/-- The leading bit of the significand is stored (R80, last column). -/
def Fmt.explicitLead : Fmt → Bool
  | .f32 => false
  | .f64 => false
  | .x80 => true
  | .f128 => false

namespace Machine

/-- `v[k-1:0]`, zero-extended (R7, R26). -/
def lowBits (k : Nat) (v : Word) : Word := BitVec.ofNat 128 (v.toNat % 2 ^ k)

/-- `sign(x)` (R81, R82). -/
def signOf (F : Fmt) (x : Word) : Bool := x.toNat.testBit (F.k - 1)

/-- `bexp(x)` (R81, R82). -/
def bexpOf (F : Fmt) (x : Word) : Nat := x.toNat / 2 ^ F.sigW % 2 ^ F.w

/-- The stored significand field: `frac(x)` of a hidden-bit format, `sig(x)` of `X80` (R81, R82). -/
def sigOf (F : Fmt) (x : Word) : Nat := x.toNat % 2 ^ F.sigW

/-- `frac(x)` (R81, R82). -/
def fracOf (F : Fmt) (x : Word) : Nat := x.toNat % 2 ^ F.t

/-- The classes of a pattern (R83, R85). -/
inductive FpClass where
  | zero | subnormal | normal | inf | qnan | snan | nonCanonical
deriving DecidableEq, Repr

/-- `Class(F, x)` for a hidden-bit format (R83). -/
def classHidden (F : Fmt) (x : Word) : FpClass :=
  if bexpOf F x = 0 then
    if fracOf F x = 0 then .zero else .subnormal
  else if bexpOf F x = F.expMax then
    if fracOf F x = 0 then .inf
    else if (fracOf F x).testBit (F.t - 1) then .qnan else .snan
  else .normal

/-- `Class(X80, x)` (R85). -/
def classX80 (x : Word) : FpClass :=
  let lead := (sigOf .x80 x).testBit 63
  if bexpOf .x80 x = 0 then
    if sigOf .x80 x = 0 then .zero
    else if lead then .nonCanonical else .subnormal
  else if !lead then .nonCanonical
  else if bexpOf .x80 x = Fmt.x80.expMax then
    if fracOf .x80 x = 0 then .inf
    else if (fracOf .x80 x).testBit 62 then .qnan else .snan
  else .normal

/-- `Class(F, x)` (R83, R85). -/
def classOf (F : Fmt) (x : Word) : FpClass :=
  if F.explicitLead then classX80 x else classHidden F x

/-- `IsNaN` (R86). -/
def isNaN (F : Fmt) (x : Word) : Bool := classOf F x == .qnan || classOf F x == .snan

/-- `IsSNaN` (R86). -/
def isSNaN (F : Fmt) (x : Word) : Bool := classOf F x == .snan

/-- `IsInf` (R86). -/
def isInf (F : Fmt) (x : Word) : Bool := classOf F x == .inf

/-- `IsZero` (R86). -/
def isZero (F : Fmt) (x : Word) : Bool := classOf F x == .zero

/-- `IsFin`: finite and nonzero (R86). -/
def isFin (F : Fmt) (x : Word) : Bool := classOf F x == .subnormal || classOf F x == .normal

/-- The integer significand `N` of a finite pattern (R84, R85): the value is `(-1)^s * N * 2^e`. It is 0 for a zero. -/
def intSigOf (F : Fmt) (x : Word) : Nat :=
  if bexpOf F x = 0 then fracOf F x else 2 ^ F.t + fracOf F x

/-- The exponent `e` that goes with `intSigOf` (R84, R85). -/
def intExpOf (F : Fmt) (x : Word) : Int :=
  if bexpOf F x = 0 then F.emin - F.t else (bexpOf F x : Int) - F.bias - F.t

/-- `Pack(F, s, be, f)` (R87). -/
def pack (F : Fmt) (s : Bool) (be f : Nat) : Word :=
  BitVec.ofNat 128 ((if s then 2 ^ (F.k - 1) else 0) + be % 2 ^ F.w * 2 ^ F.sigW + f % 2 ^ F.sigW)

/-- The pattern of a normal value with biased exponent `be` and a significand `q` of `p` bits, leading bit set: the
leading bit is dropped in a hidden-bit format and stored in `X80` (R107, R108, R153, R186). -/
def packNormal (F : Fmt) (s : Bool) (be q : Nat) : Word :=
  pack F s be (if F.explicitLead then q else q - 2 ^ (F.p - 1))

/-- `Zero(F, s)` (R87). -/
def zeroOf (F : Fmt) (s : Bool) : Word := pack F s 0 0

/-- `Inf(F, s)` (R87). -/
def infOf (F : Fmt) (s : Bool) : Word := pack F s F.expMax (if F.explicitLead then 2 ^ 63 else 0)

/-- `MaxFinite(F, s)` (R87). -/
def maxFiniteOf (F : Fmt) (s : Bool) : Word := pack F s (F.expMax - 1) (2 ^ F.sigW - 1)

/-- `DefaultNaN(F)` (R88). -/
def defaultNaN (F : Fmt) : Word :=
  pack F false F.expMax ((if F.explicitLead then 2 ^ 63 else 0) + 2 ^ (F.t - 1))

/-- `Quiet(F, x)` (R89). -/
def quiet (F : Fmt) (x : Word) : Word := x ||| BitVec.ofNat 128 (2 ^ (F.t - 1))

/-- `mag(y)`: the pattern with its sign bit cleared, as a number (R90). -/
def magOf (F : Fmt) (y : Word) : Nat := y.toNat % 2 ^ (F.k - 1)

/-- `cands` of `NaNResult`: the NaN operands, quieted (R90). -/
def nanCands (F : Fmt) (xs : List Word) : List Word := (xs.filter (isNaN F)).map (quiet F)

/-- The largest magnitude of a list of patterns (R90). -/
def maxMag (F : Fmt) (ys : List Word) : Nat := ys.foldr (fun y m => max (magOf F y) m) 0

/-- The first component of `NaNResult` (R90): the quieted NaN operand of the largest magnitude, the positive one of two
that differ in sign only. -/
def nanSelect (F : Fmt) (xs : List Word) : Word :=
  let ys := nanCands F xs
  let m := maxMag F ys
  if ys.any (fun y => magOf F y == m && !signOf F y) then BitVec.ofNat 128 m
  else BitVec.ofNat 128 (2 ^ (F.k - 1) + m)

/-- The second component of `NaNResult` (R90): some operand is a signaling NaN. -/
def nanInvalid (F : Fmt) (xs : List Word) : Bool := xs.any (isSNaN F)

/-- `x` with its sign bit inverted (R122). -/
def flipSign (F : Fmt) (x : Word) : Word := x ^^^ BitVec.ofNat 128 (2 ^ (F.k - 1))

end Machine
end Sys2Proof
end

