-- ==== Sys2Proof/Machine/Round.lean ====
section
/-! DEFINITION. The rounding and packing engine: `RoundInt` (R101), the rounding to a format's precision with unbounded
exponent (R103), tininess (R104), the record (R105), and delivery (R106 to R108), assembled as `RoundPack` (R110).
All arithmetic is over unbounded integers (R8). -/

namespace Sys2Proof.Machine

/-- `bitlen(n)` (R8). -/
def bitlen (n : Nat) : Nat := if n = 0 then 0 else n.log2 + 1

/-- The bits of the integer square root from bit `i - 1` down, on top of the part `r` already found. -/
def isqrtFrom (n : Nat) : Nat → Nat → Nat
  | 0, r => r
  | i + 1, r => if (r + 2 ^ i) * (r + 2 ^ i) ≤ n then isqrtFrom n i (r + 2 ^ i) else isqrtFrom n i r

/-- `isqrt(n)`: the greatest `r` with `r * r ≤ n` (R8), bit by bit. -/
def isqrt (n : Nat) : Nat := isqrtFrom n (bitlen n / 2 + 1) 0

/-- A magnitude cut at a place: the kept part, the guard bit and the sticky (R101). -/
structure Cut where
  q : Nat
  g : Bool
  s : Bool
deriving DecidableEq, Repr

/-- `ShiftRightGS(N, sh, st)` for `sh ≥ 1`, and for `sh ≤ 0` the exact shift to the left with nothing discarded (R101,
R103, R108). -/
def cutAt (N : Nat) (sh : Int) (st : Bool) : Cut :=
  if sh ≤ 0 then ⟨N * 2 ^ (-sh).toNat, false, false⟩
  else
    let n := sh.toNat
    ⟨N / 2 ^ n, N / 2 ^ (n - 1) % 2 == 1, N % 2 ^ (n - 1) != 0 || st⟩

/-- What `RoundInt` returns (R101). -/
structure Rounded where
  q : Nat
  inexact : Bool
  incremented : Bool
deriving DecidableEq, Repr

/-- `RoundInt(mode, sign, q, g, s)` (R101). -/
def roundInt (m : RMode) (sign : Bool) (c : Cut) : Rounded :=
  let odd := c.q % 2 == 1
  let ix := c.g || c.s
  let inc :=
    match m with
    | .ne => c.g && (c.s || odd)
    | .minmag => false
    | .min => sign && ix
    | .max => !sign && ix
    | .nmm => c.g
    | .stk => ix && !odd
  ⟨c.q + (if inc then 1 else 0), ix, inc⟩

/-- `E`, the exponent of the unrounded value: `2^E ≤ |x| < 2^(E+1)` (R103). -/
def unroundedExp (N : Nat) (e : Int) : Int := e + bitlen N - 1

/-- The unbounded-range rounded value (R103): `qu` of `p` bits and `Eu`, with what the rounding did. -/
structure Unbounded where
  qu : Nat
  Eu : Int
  inexact : Bool
  incremented : Bool
deriving DecidableEq, Repr

/-- Step 1 of `RoundPack`: rounding to `p` bits with unbounded exponent, renormalised on carry-out (R103). -/
def roundUnbounded (F : Fmt) (m : RMode) (sign : Bool) (N : Nat) (e : Int) (st : Bool) : Unbounded :=
  let r := roundInt m sign (cutAt N ((bitlen N : Int) - F.p) st)
  let E := unroundedExp N e
  if r.q = 2 ^ F.p then ⟨2 ^ (F.p - 1), E + 1, r.inexact, r.incremented⟩
  else ⟨r.q, E, r.inexact, r.incremented⟩

/-- Step 2 of `RoundPack`: tininess by the policy `TP` (R104). -/
def isTiny (F : Fmt) (tp : BitVec 1) (E Eu : Int) : Bool :=
  if tp = 0#1 then E < F.emin else Eu < F.emin

/-- Step 3 of `RoundPack`: the record (R105). The exponent fits its 32 bits: DEDUCED (log entry 10). -/
def recordOf (F : Fmt) (sign : Bool) (u : Unbounded) (tiny : Bool) : Raw where
  valid := true
  fmt := F
  sign := sign
  inexact := u.inexact
  incre := u.incremented
  tiny := tiny
  exp := BitVec.ofInt 32 u.Eu
  sig := BitVec.ofNat 128 (u.qu * 2 ^ (127 - F.p))

/-- A delivered pattern and the flags raised on the way. -/
structure Delivered where
  res : Word
  fl : BitVec 7
deriving DecidableEq, Repr

/-- Step 4a of `RoundPack`: overflow (R106). -/
def deliverOverflow (F : Fmt) (m : RMode) (sign : Bool) : Delivered :=
  let fl := Flag.overflow.mask ||| Flag.inexact.mask
  if m.overflowsToInf sign then ⟨infOf F sign, fl ||| Flag.incremented.mask⟩ else ⟨maxFiniteOf F sign, fl⟩

/-- Step 4b of `RoundPack`: a normal result (R107). -/
def deliverNormal (F : Fmt) (sign : Bool) (u : Unbounded) : Delivered :=
  ⟨packNormal F sign (u.Eu + F.bias).toNat u.qu,
    raiseIf u.inexact .inexact ||| raiseIf u.incremented .incremented⟩

/-- Step 4c of `RoundPack`: the exact value rounded once to the subnormal grid (R108). -/
def deliverSubnormal (F : Fmt) (m : RMode) (sign : Bool) (N : Nat) (e : Int) (st tiny : Bool) : Delivered :=
  let r := roundInt m sign (cutAt N (F.emin - F.p + 1 - e) st)
  ⟨if r.q = 2 ^ (F.p - 1) then packNormal F sign 1 r.q else pack F sign 0 r.q,
    raiseIf r.inexact .inexact ||| raiseIf r.incremented .incremented ||| raiseIf (tiny && r.inexact) .underflow⟩

/-- What a command does to `RAW` (R67, column RAW). -/
inductive RecordUpdate where
  /-- the rounding pass ran and its record is kept -/
  | write (r : Raw)
  /-- `RAW.Valid <- 0` -/
  | invalidate
  /-- unchanged -/
  | keep
deriving DecidableEq, Repr

/-- What a command leaves: the value of `RES`, the flags it ORs into `FLAGS`, and its effect on `RAW`. -/
structure Completion where
  res : Word
  fl : BitVec 7
  record : RecordUpdate
deriving DecidableEq, Repr

/-- `RoundPack(F, sign, N, e, st)` for `N > 0` (R110), in mode `m` under tininess policy `tp`. -/
def roundPack (F : Fmt) (m : RMode) (tp : BitVec 1) (sign : Bool) (N : Nat) (e : Int) (st : Bool) : Completion :=
  let E := unroundedExp N e
  let u := roundUnbounded F m sign N e st
  let tiny := isTiny F tp E u.Eu
  let d :=
    if F.emin ≤ E then
      if F.emax < u.Eu then deliverOverflow F m sign else deliverNormal F sign u
    else deliverSubnormal F m sign N e st tiny
  ⟨d.res, raiseIf tiny .tiny ||| d.fl, .write (recordOf F sign u tiny)⟩

/-- `special(v)` (R120): the result `v`, no flag, the record invalidated. -/
def special (v : Word) : Completion := ⟨v, 0#7, .invalidate⟩

/-- `raise f; special(v)` (R120). -/
def specialRaising (f : Flag) (v : Word) : Completion := ⟨v, f.mask, .invalidate⟩

/-- `invalid` (R120): `raise Invalid; special(DefaultNaN(F))`. -/
def invalidOp (F : Fmt) : Completion := specialRaising .invalid (defaultNaN F)

/-- The NaN path of every arithmetic command (R91, R120 step 2). -/
def nanPath (F : Fmt) (xs : List Word) : Completion :=
  ⟨nanSelect F xs, raiseIf (nanInvalid F xs) .invalid, .invalidate⟩

end Sys2Proof.Machine
end

