-- ==== Sys2Proof/Machine/Operands.lean ====
section
/-! DEFINITION. How a command takes its operands from the registers and how a result is laid in `RES` (R64, R65): every
operand form of the command set, with the refusals that reading one can meet (R35, R85). -/

namespace Sys2Proof

/-- `n(T)`: the width of an integer type (R149). -/
def IntType.n : IntType → Nat
  | .i32 => 32
  | .u32 => 32
  | .i64 => 64
  | .u64 => 64

/-- The type is two's complement (R149). -/
def IntType.signed : IntType → Bool
  | .i32 => true
  | .u32 => false
  | .i64 => true
  | .u64 => false

/-- `lo(T)` (R149). -/
def IntType.lo (T : IntType) : Int := if T.signed then -(2 ^ (T.n - 1) : Int) else 0

/-- `hi(T)` (R149). -/
def IntType.hi (T : IntType) : Int := if T.signed then 2 ^ (T.n - 1) - 1 else 2 ^ T.n - 1

namespace Machine

/-- `sext_n` or `zext_n` of the low `n(T)` bits, as the type is signed or not (R7, R64, R150). -/
def intValue (T : IntType) (v : Word) : Int :=
  let u := v.toNat % 2 ^ T.n
  if T.signed && u.testBit (T.n - 1) then (u : Int) - 2 ^ T.n else u

/-- `trunc_n(i)` of an integer result, zero-extended (R7, R65). -/
def intPattern (T : IntType) (i : Int) : Word := BitVec.ofNat 128 (i % 2 ^ T.n).toNat

/-- `scale = sext_32(OPA[31:0])` (R64, R186). -/
def scaleOf (v : Word) : Int := intValue .i32 v

/-- A Boolean result (R65). -/
def boolResult (b : Bool) : Word := if b then 1#128 else 0#128

/-- An operand of format `F` from a register: refused when the register was never written (R35) or the pattern is a
non-canonical `X80` one (R85); the bits above the operand's width are ignored (R26). -/
def withOperand (F : Fmt) (r : MarkedReg) (k : Word → Host.Outcome State Fault Refusal) :
    Host.Outcome State Fault Refusal :=
  if r.written then
    if classOf F (lowBits F.k r.val) = .nonCanonical then .refused .nonCanonicalOperand
    else k (lowBits F.k r.val)
  else .refused .unwrittenOperand

/-- The whole of a written register, for the integer operands and the scale (R64); one never written refuses the command
(R35: "A command that reads such a register is refused"). -/
def withWritten (r : MarkedReg) (k : Word → Host.Outcome State Fault Refusal) : Host.Outcome State Fault Refusal :=
  if r.written then k r.val else .refused .unwrittenOperand

/-- The rounding mode, read once at the start of a command that uses it; a reserved value refuses the command (R23). DESIGN CHOICE:
of several forms of misuse the mode is named first, then the operands in order (log entry 12). -/
def withMode (s : State) (k : RMode → Host.Outcome State Fault Refusal) : Host.Outcome State Fault Refusal :=
  match RMode.ofBits s.rm with
  | some m => k m
  | none => .refused .reservedRoundingMode

end Machine
end Sys2Proof
end

