-- ==== Sys2Proof/Machine/Ops.lean ====
section
/-! DEFINITION. The shared operations over the registers: how a command ends, and the shapes of a command by the operands it
reads (R64) and whether it uses `RM` (R67). The engine has no traps (R200, R204): `State.complete` is the one
operation by which a command raises exception flags, and nothing is entered or returned from. -/

namespace Sys2Proof.Machine

/-- The record after a command (R67, R113). An invalidated record keeps its other fields, which nothing can
read: DESIGN CHOICE (log entry 9). -/
def RecordUpdate.apply (u : RecordUpdate) (r : Raw) : Raw :=
  match u with
  | .write r' => r'
  | .invalidate => { r with valid := false }
  | .keep => r

/-- The end of every command (R33, R120 step 5): `RES` written whole, the flags OR-ed into `FLAGS`, `RAW` written,
invalidated or kept. Nothing else changes. -/
def State.complete (s : State) (c : Completion) : State :=
  { s with
    res := ⟨c.res, true⟩
    flags := s.flags ||| c.fl
    raw := c.record.apply s.raw }

/-- A command of one float operand. -/
def runUnary (F : Fmt) (f : Word → Completion) (s : State) : Host.Outcome State Fault Refusal :=
  withOperand F s.opa fun a => .next (s.complete (f a))

/-- A command of two float operands. -/
def runBinary (F : Fmt) (f : Word → Word → Completion) (s : State) : Host.Outcome State Fault Refusal :=
  withOperand F s.opa fun a => withOperand F s.opb fun b => .next (s.complete (f a b))

/-- A command of one float operand that uses `RM`. -/
def runUnaryRounding (F : Fmt) (f : RMode → BitVec 1 → Word → Completion) (s : State) :
    Host.Outcome State Fault Refusal :=
  withMode s fun m => runUnary F (f m s.tp) s

/-- A command of two float operands that uses `RM`. -/
def runBinaryRounding (F : Fmt) (f : RMode → BitVec 1 → Word → Word → Completion) (s : State) :
    Host.Outcome State Fault Refusal :=
  withMode s fun m => runBinary F (f m s.tp) s

/-- A command of three float operands that uses `RM`. -/
def runTernaryRounding (F : Fmt) (f : RMode → BitVec 1 → Word → Word → Word → Completion) (s : State) :
    Host.Outcome State Fault Refusal :=
  withMode s fun m => withOperand F s.opa fun a => withOperand F s.opb fun b => withOperand F s.opc fun c =>
    .next (s.complete (f m s.tp a b c))

/-- A command of one integer operand that uses `RM`. -/
def runIntRounding (T : IntType) (f : RMode → BitVec 1 → Int → Completion) (s : State) :
    Host.Outcome State Fault Refusal :=
  withMode s fun m => withWritten s.opa fun a => .next (s.complete (f m s.tp (intValue T a)))

end Sys2Proof.Machine
end

