-- ==== Sys2Proof/Machine/Arith.lean ====
section
/-! DEFINITION. The arithmetic commands `ADD`, `SUB`, `MUL`, `DIV`, `REM`, `SQRT`, `FMA`, each in four formats (R120 to
R128). A `…Result` function gives what a command leaves for canonical operands, in the order of tests of its rule. -/

namespace Sys2Proof.Machine

/-- `(-1)^s * N` of a finite pattern (R84, R121). -/
def signedSig (F : Fmt) (x : Word) : Int := if signOf F x then -(intSigOf F x : Int) else intSigOf F x

/-- The rounded sum of two exact terms `M1 * 2^e1` and `M2 * 2^e2` of signs `s1` and `s2` (R121, R127): aligned at the
smaller exponent and added exactly, an exact zero taking the sign of R128. -/
def sumResult (F : Fmt) (m : RMode) (tp : BitVec 1) (s1 s2 : Bool) (M1 : Int) (e1 : Int) (M2 : Int) (e2 : Int) :
    Completion :=
  let e := min e1 e2
  let M := M1 * 2 ^ (e1 - e).toNat + M2 * 2 ^ (e2 - e).toNat
  if M = 0 then special (zeroOf F (zeroSumSign m s1 s2))
  else roundPack F m tp (M < 0) M.natAbs e false

/-- `ADD` from the second line of R121 on: neither operand is a NaN. -/
def addNumbers (F : Fmt) (m : RMode) (tp : BitVec 1) (a b : Word) : Completion :=
  let sa := signOf F a
  let sb := signOf F b
  if isInf F a && isInf F b then
    if sa != sb then invalidOp F else special (infOf F sa)
  else if isInf F a then special (infOf F sa)
  else if isInf F b then special (infOf F sb)
  else if isZero F a && isZero F b then special (zeroOf F (zeroSumSign m sa sb))
  else if isZero F b then special a
  else if isZero F a then special b
  else sumResult F m tp sa sb (signedSig F a) (intExpOf F a) (signedSig F b) (intExpOf F b)

/-- `ADD` (R121). -/
def addResult (F : Fmt) (m : RMode) (tp : BitVec 1) (a b : Word) : Completion :=
  if isNaN F a || isNaN F b then nanPath F [a, b] else addNumbers F m tp a b

/-- `SUB` (R122): `ADD` with the sign of `b` inverted after the NaN test. -/
def subResult (F : Fmt) (m : RMode) (tp : BitVec 1) (a b : Word) : Completion :=
  if isNaN F a || isNaN F b then nanPath F [a, b] else addNumbers F m tp a (flipSign F b)

/-- `MUL` (R123). -/
def mulResult (F : Fmt) (m : RMode) (tp : BitVec 1) (a b : Word) : Completion :=
  let s := signOf F a ^^ signOf F b
  if isNaN F a || isNaN F b then nanPath F [a, b]
  else if isInf F a || isInf F b then
    if isZero F a || isZero F b then invalidOp F else special (infOf F s)
  else if isZero F a || isZero F b then special (zeroOf F s)
  else roundPack F m tp s (intSigOf F a * intSigOf F b) (intExpOf F a + intExpOf F b) false

/-- `DIV` (R124). -/
def divResult (F : Fmt) (m : RMode) (tp : BitVec 1) (a b : Word) : Completion :=
  let s := signOf F a ^^ signOf F b
  if isNaN F a || isNaN F b then nanPath F [a, b]
  else if isInf F a then
    if isInf F b then invalidOp F else special (infOf F s)
  else if isInf F b then special (zeroOf F s)
  else if isZero F b then
    if isZero F a then invalidOp F else specialRaising .infinite (infOf F s)
  else if isZero F a then special (zeroOf F s)
  else
    let k := 2 * F.p + 2
    let n := intSigOf F a * 2 ^ k
    roundPack F m tp s (n / intSigOf F b) (intExpOf F a - intExpOf F b - k) (n % intSigOf F b != 0)

/-- `REM` (R125): the IEEE remainder, `a` less the multiple of `b` nearest to it, the even multiple on a tie. -/
def remResult (F : Fmt) (m : RMode) (tp : BitVec 1) (a b : Word) : Completion :=
  let sa := signOf F a
  if isNaN F a || isNaN F b then nanPath F [a, b]
  else if isInf F a || isZero F b then invalidOp F
  else if isInf F b || isZero F a then special a
  else
    let e := min (intExpOf F a) (intExpOf F b)
    let A := intSigOf F a * 2 ^ (intExpOf F a - e).toNat
    let B := intSigOf F b * 2 ^ (intExpOf F b - e).toNat
    let q := A / B
    let r0 := A % B
    let r : Int := if B < 2 * r0 || (2 * r0 == B && q % 2 == 1) then (r0 : Int) - B else r0
    if r = 0 then special (zeroOf F sa)
    else roundPack F m tp (sa ^^ (r < 0)) r.natAbs e false

/-- `SQRT` (R126). -/
def sqrtResult (F : Fmt) (m : RMode) (tp : BitVec 1) (a : Word) : Completion :=
  if isNaN F a then nanPath F [a]
  else if isZero F a then special a
  else if signOf F a then invalidOp F
  else if isInf F a then special a
  else
    let ea := intExpOf F a
    let k := if ea % 2 = 0 then 2 * F.p + 4 else 2 * F.p + 5
    let x := intSigOf F a * 2 ^ k
    let r := isqrt x
    roundPack F m tp false r ((ea - k) / 2) (r * r != x)

/-- `FMA` (R127): `a * b + c` with one rounding. -/
def fmaResult (F : Fmt) (m : RMode) (tp : BitVec 1) (a b c : Word) : Completion :=
  let sp := signOf F a ^^ signOf F b
  let sc := signOf F c
  if isNaN F a || isNaN F b || isNaN F c then nanPath F [a, b, c]
  else if isInf F a || isInf F b then
    if isZero F a || isZero F b then invalidOp F
    else if isInf F c && sc != sp then invalidOp F
    else special (infOf F sp)
  else if isInf F c then special c
  else if isZero F a || isZero F b then
    if isZero F c then special (zeroOf F (zeroSumSign m sp sc)) else special c
  else
    let np := intSigOf F a * intSigOf F b
    let ep := intExpOf F a + intExpOf F b
    if isZero F c then roundPack F m tp sp np ep false
    else sumResult F m tp sp sc (if sp then -(np : Int) else np) ep (signedSig F c) (intExpOf F c)

/-- `ADD.F32` (word 0x0001, R121). -/
def execAddF32 (s : State) : Host.Outcome State Fault Refusal :=
  runBinaryRounding .f32 (addResult .f32) s

/-- `ADD.F64` (word 0x0101, R121). -/
def execAddF64 (s : State) : Host.Outcome State Fault Refusal :=
  runBinaryRounding .f64 (addResult .f64) s

/-- `ADD.X80` (word 0x0201, R121). -/
def execAddX80 (s : State) : Host.Outcome State Fault Refusal :=
  runBinaryRounding .x80 (addResult .x80) s

/-- `ADD.F128` (word 0x0301, R121). -/
def execAddF128 (s : State) : Host.Outcome State Fault Refusal :=
  runBinaryRounding .f128 (addResult .f128) s

/-- `SUB.F32` (word 0x0002, R122). -/
def execSubF32 (s : State) : Host.Outcome State Fault Refusal :=
  runBinaryRounding .f32 (subResult .f32) s

/-- `SUB.F64` (word 0x0102, R122). -/
def execSubF64 (s : State) : Host.Outcome State Fault Refusal :=
  runBinaryRounding .f64 (subResult .f64) s

/-- `SUB.X80` (word 0x0202, R122). -/
def execSubX80 (s : State) : Host.Outcome State Fault Refusal :=
  runBinaryRounding .x80 (subResult .x80) s

/-- `SUB.F128` (word 0x0302, R122). -/
def execSubF128 (s : State) : Host.Outcome State Fault Refusal :=
  runBinaryRounding .f128 (subResult .f128) s

/-- `MUL.F32` (word 0x0003, R123). -/
def execMulF32 (s : State) : Host.Outcome State Fault Refusal :=
  runBinaryRounding .f32 (mulResult .f32) s

/-- `MUL.F64` (word 0x0103, R123). -/
def execMulF64 (s : State) : Host.Outcome State Fault Refusal :=
  runBinaryRounding .f64 (mulResult .f64) s

/-- `MUL.X80` (word 0x0203, R123). -/
def execMulX80 (s : State) : Host.Outcome State Fault Refusal :=
  runBinaryRounding .x80 (mulResult .x80) s

/-- `MUL.F128` (word 0x0303, R123). -/
def execMulF128 (s : State) : Host.Outcome State Fault Refusal :=
  runBinaryRounding .f128 (mulResult .f128) s

/-- `DIV.F32` (word 0x0004, R124). -/
def execDivF32 (s : State) : Host.Outcome State Fault Refusal :=
  runBinaryRounding .f32 (divResult .f32) s

/-- `DIV.F64` (word 0x0104, R124). -/
def execDivF64 (s : State) : Host.Outcome State Fault Refusal :=
  runBinaryRounding .f64 (divResult .f64) s

/-- `DIV.X80` (word 0x0204, R124). -/
def execDivX80 (s : State) : Host.Outcome State Fault Refusal :=
  runBinaryRounding .x80 (divResult .x80) s

/-- `DIV.F128` (word 0x0304, R124). -/
def execDivF128 (s : State) : Host.Outcome State Fault Refusal :=
  runBinaryRounding .f128 (divResult .f128) s

/-- `REM.F32` (word 0x0005, R125). -/
def execRemF32 (s : State) : Host.Outcome State Fault Refusal :=
  runBinaryRounding .f32 (remResult .f32) s

/-- `REM.F64` (word 0x0105, R125). -/
def execRemF64 (s : State) : Host.Outcome State Fault Refusal :=
  runBinaryRounding .f64 (remResult .f64) s

/-- `REM.X80` (word 0x0205, R125). -/
def execRemX80 (s : State) : Host.Outcome State Fault Refusal :=
  runBinaryRounding .x80 (remResult .x80) s

/-- `REM.F128` (word 0x0305, R125). -/
def execRemF128 (s : State) : Host.Outcome State Fault Refusal :=
  runBinaryRounding .f128 (remResult .f128) s

/-- `SQRT.F32` (word 0x0006, R126). -/
def execSqrtF32 (s : State) : Host.Outcome State Fault Refusal :=
  runUnaryRounding .f32 (sqrtResult .f32) s

/-- `SQRT.F64` (word 0x0106, R126). -/
def execSqrtF64 (s : State) : Host.Outcome State Fault Refusal :=
  runUnaryRounding .f64 (sqrtResult .f64) s

/-- `SQRT.X80` (word 0x0206, R126). -/
def execSqrtX80 (s : State) : Host.Outcome State Fault Refusal :=
  runUnaryRounding .x80 (sqrtResult .x80) s

/-- `SQRT.F128` (word 0x0306, R126). -/
def execSqrtF128 (s : State) : Host.Outcome State Fault Refusal :=
  runUnaryRounding .f128 (sqrtResult .f128) s

/-- `FMA.F32` (word 0x0007, R127). -/
def execFmaF32 (s : State) : Host.Outcome State Fault Refusal :=
  runTernaryRounding .f32 (fmaResult .f32) s

/-- `FMA.F64` (word 0x0107, R127). -/
def execFmaF64 (s : State) : Host.Outcome State Fault Refusal :=
  runTernaryRounding .f64 (fmaResult .f64) s

/-- `FMA.X80` (word 0x0207, R127). -/
def execFmaX80 (s : State) : Host.Outcome State Fault Refusal :=
  runTernaryRounding .x80 (fmaResult .x80) s

/-- `FMA.F128` (word 0x0307, R127). -/
def execFmaF128 (s : State) : Host.Outcome State Fault Refusal :=
  runTernaryRounding .f128 (fmaResult .f128) s

end Sys2Proof.Machine
end

