-- ==== Sys2Proof/Machine/Compare.lean ====
section
/-! DEFINITION. The comparator: the six compares in quiet and signaling forms and the signaling-NaN predicate (R170 to
R178). None uses `RM` or `TP`; every one invalidates the record (R113). -/

namespace Sys2Proof.Machine

/-- An extended real value: an infinity or `M * 2^e` exactly (R170). -/
inductive ExtVal where
  | negInf
  | finite (M e : Int)
  | posInf
deriving DecidableEq, Repr

/-- `val(x)` of a pattern that is no NaN (R170). A zero of either sign is `0 * 2^e`. -/
def valOf (F : Fmt) (x : Word) : ExtVal :=
  if isInf F x then
    if signOf F x then .negInf else .posInf
  else .finite (if signOf F x then -(intSigOf F x : Int) else intSigOf F x) (intExpOf F x)

/-- `M1 * 2^e1 < M2 * 2^e2`, by exact alignment at the smaller exponent. -/
def scaledLt (M1 e1 M2 e2 : Int) : Bool :=
  M1 * 2 ^ (e1 - min e1 e2).toNat < M2 * 2 ^ (e2 - min e1 e2).toNat

/-- `<` on extended real values (R170). -/
def ExtVal.lt (x y : ExtVal) : Bool :=
  match x, y with
  | .negInf, .negInf => false
  | .negInf, .finite _ _ => true
  | .negInf, .posInf => true
  | .finite _ _, .negInf => false
  | .finite M1 e1, .finite M2 e2 => scaledLt M1 e1 M2 e2
  | .finite _ _, .posInf => true
  | .posInf, .negInf => false
  | .posInf, .finite _ _ => false
  | .posInf, .posInf => false

/-- `Lt(a, b)` (R170). -/
def relLt (F : Fmt) (a b : Word) : Bool := (valOf F a).lt (valOf F b)

/-- `Le(a, b)`: the order is total (R170). -/
def relLe (F : Fmt) (a b : Word) : Bool := !(valOf F b).lt (valOf F a)

/-- `Eq(a, b)` (R170). -/
def relEq (F : Fmt) (a b : Word) : Bool := relLe F a b && relLe F b a

/-- `Compare(rel, signalling)` (R178). -/
def compareResult (F : Fmt) (rel : Word → Word → Bool) (signalling : Bool) (a b : Word) : Completion :=
  if isNaN F a || isNaN F b then
    ⟨boolResult false, raiseIf (isSNaN F a || isSNaN F b || signalling) .invalid, .invalidate⟩
  else special (boolResult (rel a b))

/-- `EQ` (R171). -/
def eqResult (F : Fmt) : Word → Word → Completion := compareResult F (relEq F) false

/-- `EQS` (R172): in every observable as `EQ`. -/
def eqsResult (F : Fmt) : Word → Word → Completion := compareResult F (relEq F) false

/-- `LEQ` (R173). -/
def leqResult (F : Fmt) : Word → Word → Completion := compareResult F (relLe F) false

/-- `LES` (R174). -/
def lesResult (F : Fmt) : Word → Word → Completion := compareResult F (relLe F) true

/-- `LTQ` (R175). -/
def ltqResult (F : Fmt) : Word → Word → Completion := compareResult F (relLt F) false

/-- `LTS` (R176). -/
def ltsResult (F : Fmt) : Word → Word → Completion := compareResult F (relLt F) true

/-- `ISSNAN` (R177): no flag, whatever the operand. -/
def issnanResult (F : Fmt) (a : Word) : Completion := special (boolResult (isSNaN F a))

/-- `EQ.F32` (word 0x0020, R171). -/
def execEqF32 (s : State) : Host.Outcome State Fault Refusal :=
  runBinary .f32 (eqResult .f32) s

/-- `EQ.F64` (word 0x0120, R171). -/
def execEqF64 (s : State) : Host.Outcome State Fault Refusal :=
  runBinary .f64 (eqResult .f64) s

/-- `EQ.X80` (word 0x0220, R171). -/
def execEqX80 (s : State) : Host.Outcome State Fault Refusal :=
  runBinary .x80 (eqResult .x80) s

/-- `EQ.F128` (word 0x0320, R171). -/
def execEqF128 (s : State) : Host.Outcome State Fault Refusal :=
  runBinary .f128 (eqResult .f128) s

/-- `EQS.F32` (word 0x0021, R172). -/
def execEqsF32 (s : State) : Host.Outcome State Fault Refusal :=
  runBinary .f32 (eqsResult .f32) s

/-- `EQS.F64` (word 0x0121, R172). -/
def execEqsF64 (s : State) : Host.Outcome State Fault Refusal :=
  runBinary .f64 (eqsResult .f64) s

/-- `EQS.X80` (word 0x0221, R172). -/
def execEqsX80 (s : State) : Host.Outcome State Fault Refusal :=
  runBinary .x80 (eqsResult .x80) s

/-- `EQS.F128` (word 0x0321, R172). -/
def execEqsF128 (s : State) : Host.Outcome State Fault Refusal :=
  runBinary .f128 (eqsResult .f128) s

/-- `LEQ.F32` (word 0x0022, R173). -/
def execLeqF32 (s : State) : Host.Outcome State Fault Refusal :=
  runBinary .f32 (leqResult .f32) s

/-- `LEQ.F64` (word 0x0122, R173). -/
def execLeqF64 (s : State) : Host.Outcome State Fault Refusal :=
  runBinary .f64 (leqResult .f64) s

/-- `LEQ.X80` (word 0x0222, R173). -/
def execLeqX80 (s : State) : Host.Outcome State Fault Refusal :=
  runBinary .x80 (leqResult .x80) s

/-- `LEQ.F128` (word 0x0322, R173). -/
def execLeqF128 (s : State) : Host.Outcome State Fault Refusal :=
  runBinary .f128 (leqResult .f128) s

/-- `LES.F32` (word 0x0023, R174). -/
def execLesF32 (s : State) : Host.Outcome State Fault Refusal :=
  runBinary .f32 (lesResult .f32) s

/-- `LES.F64` (word 0x0123, R174). -/
def execLesF64 (s : State) : Host.Outcome State Fault Refusal :=
  runBinary .f64 (lesResult .f64) s

/-- `LES.X80` (word 0x0223, R174). -/
def execLesX80 (s : State) : Host.Outcome State Fault Refusal :=
  runBinary .x80 (lesResult .x80) s

/-- `LES.F128` (word 0x0323, R174). -/
def execLesF128 (s : State) : Host.Outcome State Fault Refusal :=
  runBinary .f128 (lesResult .f128) s

/-- `LTQ.F32` (word 0x0024, R175). -/
def execLtqF32 (s : State) : Host.Outcome State Fault Refusal :=
  runBinary .f32 (ltqResult .f32) s

/-- `LTQ.F64` (word 0x0124, R175). -/
def execLtqF64 (s : State) : Host.Outcome State Fault Refusal :=
  runBinary .f64 (ltqResult .f64) s

/-- `LTQ.X80` (word 0x0224, R175). -/
def execLtqX80 (s : State) : Host.Outcome State Fault Refusal :=
  runBinary .x80 (ltqResult .x80) s

/-- `LTQ.F128` (word 0x0324, R175). -/
def execLtqF128 (s : State) : Host.Outcome State Fault Refusal :=
  runBinary .f128 (ltqResult .f128) s

/-- `LTS.F32` (word 0x0025, R176). -/
def execLtsF32 (s : State) : Host.Outcome State Fault Refusal :=
  runBinary .f32 (ltsResult .f32) s

/-- `LTS.F64` (word 0x0125, R176). -/
def execLtsF64 (s : State) : Host.Outcome State Fault Refusal :=
  runBinary .f64 (ltsResult .f64) s

/-- `LTS.X80` (word 0x0225, R176). -/
def execLtsX80 (s : State) : Host.Outcome State Fault Refusal :=
  runBinary .x80 (ltsResult .x80) s

/-- `LTS.F128` (word 0x0325, R176). -/
def execLtsF128 (s : State) : Host.Outcome State Fault Refusal :=
  runBinary .f128 (ltsResult .f128) s

/-- `ISSNAN.F32` (word 0x0026, R177). -/
def execIssnanF32 (s : State) : Host.Outcome State Fault Refusal :=
  runUnary .f32 (issnanResult .f32) s

/-- `ISSNAN.F64` (word 0x0126, R177). -/
def execIssnanF64 (s : State) : Host.Outcome State Fault Refusal :=
  runUnary .f64 (issnanResult .f64) s

/-- `ISSNAN.X80` (word 0x0226, R177). -/
def execIssnanX80 (s : State) : Host.Outcome State Fault Refusal :=
  runUnary .x80 (issnanResult .x80) s

/-- `ISSNAN.F128` (word 0x0326, R177). -/
def execIssnanF128 (s : State) : Host.Outcome State Fault Refusal :=
  runUnary .f128 (issnanResult .f128) s

end Sys2Proof.Machine
end

