-- ==== Sys2Proof/Machine/Convert.lean ====
section
/-! DEFINITION. The format converter: `I2F` (R150), `F2I` (R151), `F2I_RMM` (R152), `F2F` widening (R153) and narrowing
(R154), with the NaN conversion of R155 and the open integer of R156. -/

namespace Sys2Proof.Machine

/-- `I2F` of the integer `v` (R150): the rounding pass's record is not kept (R113). -/
def i2fResult (F : Fmt) (m : RMode) (tp : BitVec 1) (v : Int) : Completion :=
  if v = 0 then special (zeroOf F false)
  else { roundPack F m tp (v < 0) v.natAbs 0 false with record := .invalidate }

/-- `IntInvalid(T, kind)` in the `n(T)` low bits (R156). The value is an open parameter of `Config`. -/
def intInvalidPattern (T : IntType) (kind : InvalidKind) : Word :=
  lowBits T.n ((Config.intInvalid T kind).setWidth 128)

/-- `raise Invalid; return IntInvalid(T, kind)` (R151). -/
def f2iInvalid (T : IntType) (kind : InvalidKind) : Completion :=
  specialRaising .invalid (intInvalidPattern T kind)

/-- The finite part of `F2I_core`: the value rounded to an integer, then the range test, then `Inexact` (R151). -/
def f2iFinite (T : IntType) (m : RMode) (sign : Bool) (N : Nat) (e : Int) : Completion :=
  let r := roundInt m sign (cutAt N (-e) false)
  let v : Int := if sign then -(r.q : Int) else r.q
  if v < T.lo then f2iInvalid T .negOverflow
  else if T.hi < v then f2iInvalid T .posOverflow
  else ⟨intPattern T v, raiseIf r.inexact .inexact, .invalidate⟩

/-- `F2I_core(mode)` (R151). -/
def f2iCore (F : Fmt) (T : IntType) (m : RMode) (a : Word) : Completion :=
  if isNaN F a then f2iInvalid T .nan
  else if isInf F a then f2iInvalid T (if signOf F a then .negOverflow else .posOverflow)
  else if isZero F a then special 0#128
  else f2iFinite T m (signOf F a) (intSigOf F a) (intExpOf F a)

/-- `F2I` (R151): `F2I_core(RM)`. -/
def f2iResult (F : Fmt) (T : IntType) (m : RMode) (_tp : BitVec 1) (a : Word) : Completion := f2iCore F T m a

/-- `F2I_RMM` (R152): `F2I_core(MINMAG)`, whatever `RM` holds. -/
def f2iRmmResult (F : Fmt) (T : IntType) (a : Word) : Completion := f2iCore F T .minmag a

/-- The payload of a converted NaN: left-aligned in `G`, the low bits dropped when `G` is narrower, the quiet bit set
(R155). -/
def nanPayload (F G : Fmt) (a : Word) : Nat :=
  (if F.t ≤ G.t then fracOf F a * 2 ^ (G.t - F.t) else fracOf F a / 2 ^ (F.t - G.t)) ||| 2 ^ (G.t - 1)

/-- The NaN conversion of `F2F` (R155). -/
def nanConvert (F G : Fmt) (a : Word) : Completion :=
  ⟨pack G (signOf F a) G.expMax ((if G.explicitLead then 2 ^ 63 else 0) + nanPayload F G a),
    raiseIf (isSNaN F a) .invalid, .invalidate⟩

/-- The exact repack of a finite nonzero value `N * 2^e` in a wider format (R153). -/
def widenPattern (G : Fmt) (sign : Bool) (N : Nat) (e : Int) : Word :=
  let E := unroundedExp N e
  if E < G.emin then pack G sign 0 (N * 2 ^ (e - (G.emin - G.p + 1)).toNat)
  else packNormal G sign (E + G.bias).toNat (N * 2 ^ (G.p - bitlen N))

/-- `F2F` to a format of higher precision (R153): exact, no flag but `Invalid` for a signaling NaN. -/
def widenResult (F G : Fmt) (_m : RMode) (_tp : BitVec 1) (a : Word) : Completion :=
  if isNaN F a then nanConvert F G a
  else if isInf F a then special (infOf G (signOf F a))
  else if isZero F a then special (zeroOf G (signOf F a))
  else special (widenPattern G (signOf F a) (intSigOf F a) (intExpOf F a))

/-- `F2F` to a format of lower precision (R154): one rounding pass. -/
def narrowResult (F G : Fmt) (m : RMode) (tp : BitVec 1) (a : Word) : Completion :=
  if isNaN F a then nanConvert F G a
  else if isInf F a then special (infOf G (signOf F a))
  else if isZero F a then special (zeroOf G (signOf F a))
  else roundPack G m tp (signOf F a) (intSigOf F a) (intExpOf F a) false

/-- `I2F.I32.F32` (word 0x0010, R150). -/
def execI2fI32F32 (s : State) : Host.Outcome State Fault Refusal :=
  runIntRounding .i32 (i2fResult .f32) s

/-- `I2F.U32.F32` (word 0x0410, R150). -/
def execI2fU32F32 (s : State) : Host.Outcome State Fault Refusal :=
  runIntRounding .u32 (i2fResult .f32) s

/-- `I2F.I64.F32` (word 0x0810, R150). -/
def execI2fI64F32 (s : State) : Host.Outcome State Fault Refusal :=
  runIntRounding .i64 (i2fResult .f32) s

/-- `I2F.U64.F32` (word 0x0C10, R150). -/
def execI2fU64F32 (s : State) : Host.Outcome State Fault Refusal :=
  runIntRounding .u64 (i2fResult .f32) s

/-- `I2F.I32.F64` (word 0x0110, R150). -/
def execI2fI32F64 (s : State) : Host.Outcome State Fault Refusal :=
  runIntRounding .i32 (i2fResult .f64) s

/-- `I2F.U32.F64` (word 0x0510, R150). -/
def execI2fU32F64 (s : State) : Host.Outcome State Fault Refusal :=
  runIntRounding .u32 (i2fResult .f64) s

/-- `I2F.I64.F64` (word 0x0910, R150). -/
def execI2fI64F64 (s : State) : Host.Outcome State Fault Refusal :=
  runIntRounding .i64 (i2fResult .f64) s

/-- `I2F.U64.F64` (word 0x0D10, R150). -/
def execI2fU64F64 (s : State) : Host.Outcome State Fault Refusal :=
  runIntRounding .u64 (i2fResult .f64) s

/-- `I2F.I32.X80` (word 0x0210, R150). -/
def execI2fI32X80 (s : State) : Host.Outcome State Fault Refusal :=
  runIntRounding .i32 (i2fResult .x80) s

/-- `I2F.U32.X80` (word 0x0610, R150). -/
def execI2fU32X80 (s : State) : Host.Outcome State Fault Refusal :=
  runIntRounding .u32 (i2fResult .x80) s

/-- `I2F.I64.X80` (word 0x0A10, R150). -/
def execI2fI64X80 (s : State) : Host.Outcome State Fault Refusal :=
  runIntRounding .i64 (i2fResult .x80) s

/-- `I2F.U64.X80` (word 0x0E10, R150). -/
def execI2fU64X80 (s : State) : Host.Outcome State Fault Refusal :=
  runIntRounding .u64 (i2fResult .x80) s

/-- `I2F.I32.F128` (word 0x0310, R150). -/
def execI2fI32F128 (s : State) : Host.Outcome State Fault Refusal :=
  runIntRounding .i32 (i2fResult .f128) s

/-- `I2F.U32.F128` (word 0x0710, R150). -/
def execI2fU32F128 (s : State) : Host.Outcome State Fault Refusal :=
  runIntRounding .u32 (i2fResult .f128) s

/-- `I2F.I64.F128` (word 0x0B10, R150). -/
def execI2fI64F128 (s : State) : Host.Outcome State Fault Refusal :=
  runIntRounding .i64 (i2fResult .f128) s

/-- `I2F.U64.F128` (word 0x0F10, R150). -/
def execI2fU64F128 (s : State) : Host.Outcome State Fault Refusal :=
  runIntRounding .u64 (i2fResult .f128) s

/-- `F2I.F32.I32` (word 0x0011, R151). -/
def execF2iF32I32 (s : State) : Host.Outcome State Fault Refusal :=
  runUnaryRounding .f32 (f2iResult .f32 .i32) s

/-- `F2I.F32.U32` (word 0x0411, R151). -/
def execF2iF32U32 (s : State) : Host.Outcome State Fault Refusal :=
  runUnaryRounding .f32 (f2iResult .f32 .u32) s

/-- `F2I.F32.I64` (word 0x0811, R151). -/
def execF2iF32I64 (s : State) : Host.Outcome State Fault Refusal :=
  runUnaryRounding .f32 (f2iResult .f32 .i64) s

/-- `F2I.F32.U64` (word 0x0C11, R151). -/
def execF2iF32U64 (s : State) : Host.Outcome State Fault Refusal :=
  runUnaryRounding .f32 (f2iResult .f32 .u64) s

/-- `F2I.F64.I32` (word 0x0111, R151). -/
def execF2iF64I32 (s : State) : Host.Outcome State Fault Refusal :=
  runUnaryRounding .f64 (f2iResult .f64 .i32) s

/-- `F2I.F64.U32` (word 0x0511, R151). -/
def execF2iF64U32 (s : State) : Host.Outcome State Fault Refusal :=
  runUnaryRounding .f64 (f2iResult .f64 .u32) s

/-- `F2I.F64.I64` (word 0x0911, R151). -/
def execF2iF64I64 (s : State) : Host.Outcome State Fault Refusal :=
  runUnaryRounding .f64 (f2iResult .f64 .i64) s

/-- `F2I.F64.U64` (word 0x0D11, R151). -/
def execF2iF64U64 (s : State) : Host.Outcome State Fault Refusal :=
  runUnaryRounding .f64 (f2iResult .f64 .u64) s

/-- `F2I.X80.I32` (word 0x0211, R151). -/
def execF2iX80I32 (s : State) : Host.Outcome State Fault Refusal :=
  runUnaryRounding .x80 (f2iResult .x80 .i32) s

/-- `F2I.X80.U32` (word 0x0611, R151). -/
def execF2iX80U32 (s : State) : Host.Outcome State Fault Refusal :=
  runUnaryRounding .x80 (f2iResult .x80 .u32) s

/-- `F2I.X80.I64` (word 0x0A11, R151). -/
def execF2iX80I64 (s : State) : Host.Outcome State Fault Refusal :=
  runUnaryRounding .x80 (f2iResult .x80 .i64) s

/-- `F2I.X80.U64` (word 0x0E11, R151). -/
def execF2iX80U64 (s : State) : Host.Outcome State Fault Refusal :=
  runUnaryRounding .x80 (f2iResult .x80 .u64) s

/-- `F2I.F128.I32` (word 0x0311, R151). -/
def execF2iF128I32 (s : State) : Host.Outcome State Fault Refusal :=
  runUnaryRounding .f128 (f2iResult .f128 .i32) s

/-- `F2I.F128.U32` (word 0x0711, R151). -/
def execF2iF128U32 (s : State) : Host.Outcome State Fault Refusal :=
  runUnaryRounding .f128 (f2iResult .f128 .u32) s

/-- `F2I.F128.I64` (word 0x0B11, R151). -/
def execF2iF128I64 (s : State) : Host.Outcome State Fault Refusal :=
  runUnaryRounding .f128 (f2iResult .f128 .i64) s

/-- `F2I.F128.U64` (word 0x0F11, R151). -/
def execF2iF128U64 (s : State) : Host.Outcome State Fault Refusal :=
  runUnaryRounding .f128 (f2iResult .f128 .u64) s

/-- `F2I_RMM.F32.I32` (word 0x0012, R152). -/
def execF2iRmmF32I32 (s : State) : Host.Outcome State Fault Refusal :=
  runUnary .f32 (f2iRmmResult .f32 .i32) s

/-- `F2I_RMM.F32.U32` (word 0x0412, R152). -/
def execF2iRmmF32U32 (s : State) : Host.Outcome State Fault Refusal :=
  runUnary .f32 (f2iRmmResult .f32 .u32) s

/-- `F2I_RMM.F32.I64` (word 0x0812, R152). -/
def execF2iRmmF32I64 (s : State) : Host.Outcome State Fault Refusal :=
  runUnary .f32 (f2iRmmResult .f32 .i64) s

/-- `F2I_RMM.F32.U64` (word 0x0C12, R152). -/
def execF2iRmmF32U64 (s : State) : Host.Outcome State Fault Refusal :=
  runUnary .f32 (f2iRmmResult .f32 .u64) s

/-- `F2I_RMM.F64.I32` (word 0x0112, R152). -/
def execF2iRmmF64I32 (s : State) : Host.Outcome State Fault Refusal :=
  runUnary .f64 (f2iRmmResult .f64 .i32) s

/-- `F2I_RMM.F64.U32` (word 0x0512, R152). -/
def execF2iRmmF64U32 (s : State) : Host.Outcome State Fault Refusal :=
  runUnary .f64 (f2iRmmResult .f64 .u32) s

/-- `F2I_RMM.F64.I64` (word 0x0912, R152). -/
def execF2iRmmF64I64 (s : State) : Host.Outcome State Fault Refusal :=
  runUnary .f64 (f2iRmmResult .f64 .i64) s

/-- `F2I_RMM.F64.U64` (word 0x0D12, R152). -/
def execF2iRmmF64U64 (s : State) : Host.Outcome State Fault Refusal :=
  runUnary .f64 (f2iRmmResult .f64 .u64) s

/-- `F2I_RMM.X80.I32` (word 0x0212, R152). -/
def execF2iRmmX80I32 (s : State) : Host.Outcome State Fault Refusal :=
  runUnary .x80 (f2iRmmResult .x80 .i32) s

/-- `F2I_RMM.X80.U32` (word 0x0612, R152). -/
def execF2iRmmX80U32 (s : State) : Host.Outcome State Fault Refusal :=
  runUnary .x80 (f2iRmmResult .x80 .u32) s

/-- `F2I_RMM.X80.I64` (word 0x0A12, R152). -/
def execF2iRmmX80I64 (s : State) : Host.Outcome State Fault Refusal :=
  runUnary .x80 (f2iRmmResult .x80 .i64) s

/-- `F2I_RMM.X80.U64` (word 0x0E12, R152). -/
def execF2iRmmX80U64 (s : State) : Host.Outcome State Fault Refusal :=
  runUnary .x80 (f2iRmmResult .x80 .u64) s

/-- `F2I_RMM.F128.I32` (word 0x0312, R152). -/
def execF2iRmmF128I32 (s : State) : Host.Outcome State Fault Refusal :=
  runUnary .f128 (f2iRmmResult .f128 .i32) s

/-- `F2I_RMM.F128.U32` (word 0x0712, R152). -/
def execF2iRmmF128U32 (s : State) : Host.Outcome State Fault Refusal :=
  runUnary .f128 (f2iRmmResult .f128 .u32) s

/-- `F2I_RMM.F128.I64` (word 0x0B12, R152). -/
def execF2iRmmF128I64 (s : State) : Host.Outcome State Fault Refusal :=
  runUnary .f128 (f2iRmmResult .f128 .i64) s

/-- `F2I_RMM.F128.U64` (word 0x0F12, R152). -/
def execF2iRmmF128U64 (s : State) : Host.Outcome State Fault Refusal :=
  runUnary .f128 (f2iRmmResult .f128 .u64) s

/-- `F2F.F32.F64` (word 0x0413, R153, R155). -/
def execF2fF32F64 (s : State) : Host.Outcome State Fault Refusal :=
  runUnaryRounding .f32 (widenResult .f32 .f64) s

/-- `F2F.F32.X80` (word 0x0813, R153, R155). -/
def execF2fF32X80 (s : State) : Host.Outcome State Fault Refusal :=
  runUnaryRounding .f32 (widenResult .f32 .x80) s

/-- `F2F.F32.F128` (word 0x0C13, R153, R155). -/
def execF2fF32F128 (s : State) : Host.Outcome State Fault Refusal :=
  runUnaryRounding .f32 (widenResult .f32 .f128) s

/-- `F2F.F64.F32` (word 0x0113, R154, R155). -/
def execF2fF64F32 (s : State) : Host.Outcome State Fault Refusal :=
  runUnaryRounding .f64 (narrowResult .f64 .f32) s

/-- `F2F.F64.X80` (word 0x0913, R153, R155). -/
def execF2fF64X80 (s : State) : Host.Outcome State Fault Refusal :=
  runUnaryRounding .f64 (widenResult .f64 .x80) s

/-- `F2F.F64.F128` (word 0x0D13, R153, R155). -/
def execF2fF64F128 (s : State) : Host.Outcome State Fault Refusal :=
  runUnaryRounding .f64 (widenResult .f64 .f128) s

/-- `F2F.X80.F32` (word 0x0213, R154, R155). -/
def execF2fX80F32 (s : State) : Host.Outcome State Fault Refusal :=
  runUnaryRounding .x80 (narrowResult .x80 .f32) s

/-- `F2F.X80.F64` (word 0x0613, R154, R155). -/
def execF2fX80F64 (s : State) : Host.Outcome State Fault Refusal :=
  runUnaryRounding .x80 (narrowResult .x80 .f64) s

/-- `F2F.X80.F128` (word 0x0E13, R153, R155). -/
def execF2fX80F128 (s : State) : Host.Outcome State Fault Refusal :=
  runUnaryRounding .x80 (widenResult .x80 .f128) s

/-- `F2F.F128.F32` (word 0x0313, R154, R155). -/
def execF2fF128F32 (s : State) : Host.Outcome State Fault Refusal :=
  runUnaryRounding .f128 (narrowResult .f128 .f32) s

/-- `F2F.F128.F64` (word 0x0713, R154, R155). -/
def execF2fF128F64 (s : State) : Host.Outcome State Fault Refusal :=
  runUnaryRounding .f128 (narrowResult .f128 .f64) s

/-- `F2F.F128.X80` (word 0x0B13, R154, R155). -/
def execF2fF128X80 (s : State) : Host.Outcome State Fault Refusal :=
  runUnaryRounding .f128 (narrowResult .f128 .x80) s

end Sys2Proof.Machine
end

