-- ==== Sys2Proof/Machine/Scaled.lean ====
section
/-! DEFINITION. The scaled-result trap formatter: `SCALED` in `F32`, `F64` and `F128` (R185 to R187). -/

namespace Sys2Proof.Machine

/-- The scaled exponent `E' = RAW.Exp + scale`, over the integers (R186). -/
def scaledExp (r : Raw) (scale : Int) : Int := r.exp.toInt + scale

/-- The pattern of the record's value times `2^scale` (R186): the record's significand, repacked without rounding. -/
def scaledPattern (F : Fmt) (r : Raw) (scale : Int) : Word :=
  packNormal F r.sign (scaledExp r scale + F.bias).toNat (r.sig.toNat / 2 ^ (127 - F.p))

/-- `SCALED` (R186): refused without a record of format `F` (R187 (a)) and when the scaled exponent is no normal exponent
of `F` (R187 (b)); no flag is raised and the record is kept. -/
def runScaled (F : Fmt) (s : State) : Host.Outcome State Fault Refusal :=
  withWritten s.opa fun a =>
    if s.raw.valid then
      if s.raw.fmt = F then
        if F.emin ≤ scaledExp s.raw (scaleOf a) ∧ scaledExp s.raw (scaleOf a) ≤ F.emax then
          .next (s.complete ⟨scaledPattern F s.raw (scaleOf a), 0#7, .keep⟩)
        else .refused .scaledExponentOutOfRange
      else .refused .recordFormatMismatch
    else .refused .noRecord

/-- `SCALED.F32` (word 0x0030, R186). -/
def execScaledF32 (s : State) : Host.Outcome State Fault Refusal :=
  runScaled .f32 s

/-- `SCALED.F64` (word 0x0130, R186). -/
def execScaledF64 (s : State) : Host.Outcome State Fault Refusal :=
  runScaled .f64 s

/-- `SCALED.F128` (word 0x0330, R186). -/
def execScaledF128 (s : State) : Host.Outcome State Fault Refusal :=
  runScaled .f128 s

end Sys2Proof.Machine
end

