-- ==== Sys2Proof/Machine/Dispatch.lean ====
section
/-! DEFINITION. One arm per instruction, each one call of the instruction's meaning. -/

namespace Sys2Proof.Machine

def exec (i : Instr) (s : State) : Host.Outcome State Fault Refusal :=
  match i with
  | .addF32 => Sys2Proof.Machine.execAddF32 s
  | .addF64 => Sys2Proof.Machine.execAddF64 s
  | .addX80 => Sys2Proof.Machine.execAddX80 s
  | .addF128 => Sys2Proof.Machine.execAddF128 s
  | .subF32 => Sys2Proof.Machine.execSubF32 s
  | .subF64 => Sys2Proof.Machine.execSubF64 s
  | .subX80 => Sys2Proof.Machine.execSubX80 s
  | .subF128 => Sys2Proof.Machine.execSubF128 s
  | .mulF32 => Sys2Proof.Machine.execMulF32 s
  | .mulF64 => Sys2Proof.Machine.execMulF64 s
  | .mulX80 => Sys2Proof.Machine.execMulX80 s
  | .mulF128 => Sys2Proof.Machine.execMulF128 s
  | .divF32 => Sys2Proof.Machine.execDivF32 s
  | .divF64 => Sys2Proof.Machine.execDivF64 s
  | .divX80 => Sys2Proof.Machine.execDivX80 s
  | .divF128 => Sys2Proof.Machine.execDivF128 s
  | .remF32 => Sys2Proof.Machine.execRemF32 s
  | .remF64 => Sys2Proof.Machine.execRemF64 s
  | .remX80 => Sys2Proof.Machine.execRemX80 s
  | .remF128 => Sys2Proof.Machine.execRemF128 s
  | .sqrtF32 => Sys2Proof.Machine.execSqrtF32 s
  | .sqrtF64 => Sys2Proof.Machine.execSqrtF64 s
  | .sqrtX80 => Sys2Proof.Machine.execSqrtX80 s
  | .sqrtF128 => Sys2Proof.Machine.execSqrtF128 s
  | .fmaF32 => Sys2Proof.Machine.execFmaF32 s
  | .fmaF64 => Sys2Proof.Machine.execFmaF64 s
  | .fmaX80 => Sys2Proof.Machine.execFmaX80 s
  | .fmaF128 => Sys2Proof.Machine.execFmaF128 s
  | .i2fI32F32 => Sys2Proof.Machine.execI2fI32F32 s
  | .i2fU32F32 => Sys2Proof.Machine.execI2fU32F32 s
  | .i2fI64F32 => Sys2Proof.Machine.execI2fI64F32 s
  | .i2fU64F32 => Sys2Proof.Machine.execI2fU64F32 s
  | .i2fI32F64 => Sys2Proof.Machine.execI2fI32F64 s
  | .i2fU32F64 => Sys2Proof.Machine.execI2fU32F64 s
  | .i2fI64F64 => Sys2Proof.Machine.execI2fI64F64 s
  | .i2fU64F64 => Sys2Proof.Machine.execI2fU64F64 s
  | .i2fI32X80 => Sys2Proof.Machine.execI2fI32X80 s
  | .i2fU32X80 => Sys2Proof.Machine.execI2fU32X80 s
  | .i2fI64X80 => Sys2Proof.Machine.execI2fI64X80 s
  | .i2fU64X80 => Sys2Proof.Machine.execI2fU64X80 s
  | .i2fI32F128 => Sys2Proof.Machine.execI2fI32F128 s
  | .i2fU32F128 => Sys2Proof.Machine.execI2fU32F128 s
  | .i2fI64F128 => Sys2Proof.Machine.execI2fI64F128 s
  | .i2fU64F128 => Sys2Proof.Machine.execI2fU64F128 s
  | .f2iF32I32 => Sys2Proof.Machine.execF2iF32I32 s
  | .f2iF32U32 => Sys2Proof.Machine.execF2iF32U32 s
  | .f2iF32I64 => Sys2Proof.Machine.execF2iF32I64 s
  | .f2iF32U64 => Sys2Proof.Machine.execF2iF32U64 s
  | .f2iF64I32 => Sys2Proof.Machine.execF2iF64I32 s
  | .f2iF64U32 => Sys2Proof.Machine.execF2iF64U32 s
  | .f2iF64I64 => Sys2Proof.Machine.execF2iF64I64 s
  | .f2iF64U64 => Sys2Proof.Machine.execF2iF64U64 s
  | .f2iX80I32 => Sys2Proof.Machine.execF2iX80I32 s
  | .f2iX80U32 => Sys2Proof.Machine.execF2iX80U32 s
  | .f2iX80I64 => Sys2Proof.Machine.execF2iX80I64 s
  | .f2iX80U64 => Sys2Proof.Machine.execF2iX80U64 s
  | .f2iF128I32 => Sys2Proof.Machine.execF2iF128I32 s
  | .f2iF128U32 => Sys2Proof.Machine.execF2iF128U32 s
  | .f2iF128I64 => Sys2Proof.Machine.execF2iF128I64 s
  | .f2iF128U64 => Sys2Proof.Machine.execF2iF128U64 s
  | .f2iRmmF32I32 => Sys2Proof.Machine.execF2iRmmF32I32 s
  | .f2iRmmF32U32 => Sys2Proof.Machine.execF2iRmmF32U32 s
  | .f2iRmmF32I64 => Sys2Proof.Machine.execF2iRmmF32I64 s
  | .f2iRmmF32U64 => Sys2Proof.Machine.execF2iRmmF32U64 s
  | .f2iRmmF64I32 => Sys2Proof.Machine.execF2iRmmF64I32 s
  | .f2iRmmF64U32 => Sys2Proof.Machine.execF2iRmmF64U32 s
  | .f2iRmmF64I64 => Sys2Proof.Machine.execF2iRmmF64I64 s
  | .f2iRmmF64U64 => Sys2Proof.Machine.execF2iRmmF64U64 s
  | .f2iRmmX80I32 => Sys2Proof.Machine.execF2iRmmX80I32 s
  | .f2iRmmX80U32 => Sys2Proof.Machine.execF2iRmmX80U32 s
  | .f2iRmmX80I64 => Sys2Proof.Machine.execF2iRmmX80I64 s
  | .f2iRmmX80U64 => Sys2Proof.Machine.execF2iRmmX80U64 s
  | .f2iRmmF128I32 => Sys2Proof.Machine.execF2iRmmF128I32 s
  | .f2iRmmF128U32 => Sys2Proof.Machine.execF2iRmmF128U32 s
  | .f2iRmmF128I64 => Sys2Proof.Machine.execF2iRmmF128I64 s
  | .f2iRmmF128U64 => Sys2Proof.Machine.execF2iRmmF128U64 s
  | .f2fF32F64 => Sys2Proof.Machine.execF2fF32F64 s
  | .f2fF32X80 => Sys2Proof.Machine.execF2fF32X80 s
  | .f2fF32F128 => Sys2Proof.Machine.execF2fF32F128 s
  | .f2fF64F32 => Sys2Proof.Machine.execF2fF64F32 s
  | .f2fF64X80 => Sys2Proof.Machine.execF2fF64X80 s
  | .f2fF64F128 => Sys2Proof.Machine.execF2fF64F128 s
  | .f2fX80F32 => Sys2Proof.Machine.execF2fX80F32 s
  | .f2fX80F64 => Sys2Proof.Machine.execF2fX80F64 s
  | .f2fX80F128 => Sys2Proof.Machine.execF2fX80F128 s
  | .f2fF128F32 => Sys2Proof.Machine.execF2fF128F32 s
  | .f2fF128F64 => Sys2Proof.Machine.execF2fF128F64 s
  | .f2fF128X80 => Sys2Proof.Machine.execF2fF128X80 s
  | .eqF32 => Sys2Proof.Machine.execEqF32 s
  | .eqF64 => Sys2Proof.Machine.execEqF64 s
  | .eqX80 => Sys2Proof.Machine.execEqX80 s
  | .eqF128 => Sys2Proof.Machine.execEqF128 s
  | .eqsF32 => Sys2Proof.Machine.execEqsF32 s
  | .eqsF64 => Sys2Proof.Machine.execEqsF64 s
  | .eqsX80 => Sys2Proof.Machine.execEqsX80 s
  | .eqsF128 => Sys2Proof.Machine.execEqsF128 s
  | .leqF32 => Sys2Proof.Machine.execLeqF32 s
  | .leqF64 => Sys2Proof.Machine.execLeqF64 s
  | .leqX80 => Sys2Proof.Machine.execLeqX80 s
  | .leqF128 => Sys2Proof.Machine.execLeqF128 s
  | .lesF32 => Sys2Proof.Machine.execLesF32 s
  | .lesF64 => Sys2Proof.Machine.execLesF64 s
  | .lesX80 => Sys2Proof.Machine.execLesX80 s
  | .lesF128 => Sys2Proof.Machine.execLesF128 s
  | .ltqF32 => Sys2Proof.Machine.execLtqF32 s
  | .ltqF64 => Sys2Proof.Machine.execLtqF64 s
  | .ltqX80 => Sys2Proof.Machine.execLtqX80 s
  | .ltqF128 => Sys2Proof.Machine.execLtqF128 s
  | .ltsF32 => Sys2Proof.Machine.execLtsF32 s
  | .ltsF64 => Sys2Proof.Machine.execLtsF64 s
  | .ltsX80 => Sys2Proof.Machine.execLtsX80 s
  | .ltsF128 => Sys2Proof.Machine.execLtsF128 s
  | .issnanF32 => Sys2Proof.Machine.execIssnanF32 s
  | .issnanF64 => Sys2Proof.Machine.execIssnanF64 s
  | .issnanX80 => Sys2Proof.Machine.execIssnanX80 s
  | .issnanF128 => Sys2Proof.Machine.execIssnanF128 s
  | .scaledF32 => Sys2Proof.Machine.execScaledF32 s
  | .scaledF64 => Sys2Proof.Machine.execScaledF64 s
  | .scaledF128 => Sys2Proof.Machine.execScaledF128 s

end Sys2Proof.Machine
end

