-- ==== Sys2Proof/Machine/HostPort.lean ====
section
/-! DEFINITION. The host's register port (R21 to R29, R55): what a host read delivers, what a host write stores, and how the
next host operation turns into a command. -/

namespace Sys2Proof.Machine

/-- `RAW_ATTR`, bits 7 to 0: `{0, Valid, Fmt, Tiny, Incre, Inexact, Sign}`. While the record is invalid bits 5 to 0 are
those of the value drawn (R29). -/
def rawAttr (r : Raw) (draw : Word) : BitVec 8 :=
  if r.valid then
    (0#1 ++ 1#1 ++ r.fmt.code ++ BitVec.ofBool r.tiny ++ BitVec.ofBool r.incre ++ BitVec.ofBool r.inexact ++
      BitVec.ofBool r.sign : BitVec 8)
  else (draw.setWidth 6).setWidth 8

/-- The value of a register of the record, or while the record is invalid the value drawn (R29). -/
def rawOrDraw (valid : Bool) (v draw : Word) : Word := if valid then v else draw

/-- The value of a marked register; a read of one never written is refused (R35: "so are a host read of such a register
and a host read of `RES` before the first command"). -/
def markedValue (r : MarkedReg) : Except Refusal Word :=
  if r.written then .ok r.val else .error .unwrittenRead

/-- What a host read of register number `reg` delivers, zero-extended to the bus (R21). DESIGN CHOICE: a value drawn
depends on this instance's count of draws alone, so two instances at equal counts draw alike (log entry 2). -/
def readReg (s : State) (reg : Nat) : Except Refusal Word :=
  match reg with
  | 0 => .error .writeOnlyRegister
  | 1 => .ok (s.rm.setWidth 128)
  | 2 => .ok (s.tp.setWidth 128)
  | 3 => .ok (s.flags.setWidth 128)
  | 4 => markedValue s.opa
  | 5 => markedValue s.opb
  | 6 => markedValue s.opc
  | 7 => markedValue s.res
  | 8 => .ok (rawOrDraw s.raw.valid s.raw.sig (Config.freeRead s.draws))
  | 9 => .ok (rawOrDraw s.raw.valid (s.raw.exp.setWidth 128) (lowBits 32 (Config.freeRead s.draws)))
  | 10 => .ok ((rawAttr s.raw (Config.freeRead s.draws)).setWidth 128)
  | _ => .error .noSuchRegister

/-- The read draws a free value: a register of the record is read while the record is invalid (R29). -/
def readDraws (s : State) (reg : Nat) : Bool := !s.raw.valid && (8 ≤ reg && reg ≤ 10)

/-- A host read (R55): no register changes, and the value read is the host's. -/
def hostRead (reg : Nat) (s : State) : Host.Outcome State Fault Refusal :=
  match readReg s reg with
  | .ok v => .next { s with reads := v :: s.reads, draws := s.draws + (if readDraws s reg then 1 else 0) }
  | .error r => .refused r

/-- A host write to a register other than `CMD` (R21, R55): the bits above the register's width are ignored. -/
def hostWrite (reg : Nat) (v : Word) (s : State) : Host.Outcome State Fault Refusal :=
  match reg with
  | 1 => .next { s with rm := v.setWidth 3 }
  | 2 => .next { s with tp := v.setWidth 1 }
  | 3 => .next { s with flags := v.setWidth 7 }
  | 4 => .next { s with opa := ⟨v, true⟩ }
  | 5 => .next { s with opb := ⟨v, true⟩ }
  | 6 => .next { s with opc := ⟨v, true⟩ }
  | 7 => .refused .readOnlyRegister
  | 8 => .refused .readOnlyRegister
  | 9 => .refused .readOnlyRegister
  | 10 => .refused .readOnlyRegister
  | _ => .refused .noSuchRegister

/-- The reset event (R220): the instance's registers as after reset; the host's side of the port is not the
instance's. -/
def resetEvent (s : State) : State :=
  { State.reset with host := s.host, reads := s.reads, draws := s.draws }

/-- What the next host operation asks for. -/
inductive Request where
  /-- no operation is waiting: between two host accesses the state is constant (R202) -/
  | idle
  /-- a write to `CMD` of the word of instruction `i`, to run in the state `s` -/
  | command (i : Instr) (s : State)
  /-- anything else, with its outcome -/
  | done (o : Host.Outcome State Fault Refusal)

/-- A host write, to `CMD` (R22: the word is decoded, and a reserved one refused) or to another register. The
bits of the value above 16 are no part of the word: DEDUCED from R21 (log entry 13). -/
def requestOfWrite (reg : Nat) (v : Word) (s : State) : Request :=
  if reg = 0 then
    match decode (v.setWidth 16) with
    | .ok i => .command i s
    | .error why => .done (.refused (.reservedCommand why))
  else .done (hostWrite reg v s)

/-- The next host operation, taken from the front of the list (R31, R58), and what it asks for. DESIGN CHOICE: the
list is the model's form of the host (log entry 3). -/
def nextRequest (s : State) : Request :=
  match s.host with
  | [] => .idle
  | .wr reg v :: rest => requestOfWrite reg v { s with host := rest }
  | .rd reg :: rest => .done (hostRead reg { s with host := rest })
  | .reset :: rest => .done (.next (resetEvent { s with host := rest }))

/-- The operand registers count as written with the values they hold: the host's duty before a command (R33, R221 (4)),
used by `State.withFetchWord`. -/
def operandsWritten (s : State) : State :=
  { s with opa := ⟨s.opa.val, true⟩, opb := ⟨s.opb.val, true⟩, opc := ⟨s.opc.val, true⟩ }

end Sys2Proof.Machine
end

