-- ==== Sys2Proof/Machine/Step.lean ====
section
/-! DEFINITION. One step: the next host operation takes effect, whole (R55, R58). -/

namespace Sys2Proof.Machine

/-- One step of an engine instance. A write to `CMD` runs the command it carries (R22); every other host operation takes
its own effect; with no operation waiting nothing changes (R202). -/
def step (s : State) : Host.Outcome State Fault Refusal :=
  match nextRequest s with
  | .idle => .next s
  | .command i t => exec i t
  | .done o => o

/-- `s` about to run the instruction whose bits are `w`: a host write of that word to `CMD` stands next, and the operand
registers count as written, as the host must see to before it writes `CMD` (R33, R221; log entry 4). -/
def State.withFetchWord (s : State) (nbits w : Nat) : State :=
  { operandsWritten s with host := .wr 0 (BitVec.ofNat 128 (w % 2 ^ nbits)) :: s.host }

end Sys2Proof.Machine
end

