-- ==== Sys2Proof/Machine/System.lean ====
section
/-! DEFINITION. A system of engine instances, one per emulated CPU (R207): the product of independent copies of the
single-instance machine. -/

namespace Sys2Proof.Machine

/-- The states of the instances, by index. An instance cannot see its index (R207). -/
abbrev System := List State

/-- A system after reset: `N_INSTANCES` instances, each as after reset (R207, R220). DESIGN CHOICE: the open parameters
and the free values are the same for all of them (log entries 2, 5 and 6). -/
def System.atReset : System := List.replicate Config.nInstances State.reset

/-- One step of instance `k`; the others do not change (R207). DESIGN CHOICE: the caller chooses
`k` (log entry 7). -/
def System.stepAt (k : Nat) (sys : System) : Host.Outcome System Fault Refusal :=
  match sys[k]? with
  | none => .refused .noSuchInstance
  | some s =>
    match step s with
    | .next t => .next (sys.set k t)
    | .fault f => .fault f
    | .refused r => .refused r

end Sys2Proof.Machine
end

