-- ==== Sys2Proof/Safety.lean ====
section
/-! DEFINITION. The terms claims are made in: when a command may run (R200, R209), what a command uses and delivers (R65,
R67), the invariant of the state, and a safe run. -/

namespace Sys2Proof

/-- "Uses RM" of R67. -/
def Cmd.usesRM : Cmd → Bool
  | .arith _ _ => true
  | .i2f _ _ => true
  | .f2i _ _ => true
  | .f2iRmm _ _ => false
  | .f2f _ _ => true
  | .cmp _ _ => false
  | .issnan _ => false
  | .scaled _ => false

/-- How many float operands, from `OPA` on, and of which format (R64). -/
def Cmd.floatOperands : Cmd → Option (Fmt × Nat)
  | .arith .sqrt F => some (F, 1)
  | .arith .fma F => some (F, 3)
  | .arith _ F => some (F, 2)
  | .i2f _ _ => none
  | .f2i F _ => some (F, 1)
  | .f2iRmm F _ => some (F, 1)
  | .f2f F _ => some (F, 1)
  | .cmp _ F => some (F, 2)
  | .issnan F => some (F, 1)
  | .scaled _ => none

/-- How many low bits a command reads of `OPA`, `OPB` and `OPC`; 0 of a register it does not read (R64). -/
def Cmd.readWidths : Cmd → Nat × Nat × Nat
  | .arith .sqrt F => (F.k, 0, 0)
  | .arith .fma F => (F.k, F.k, F.k)
  | .arith _ F => (F.k, F.k, 0)
  | .i2f T _ => (T.n, 0, 0)
  | .f2i F _ => (F.k, 0, 0)
  | .f2iRmm F _ => (F.k, 0, 0)
  | .f2f F _ => (F.k, 0, 0)
  | .cmp _ F => (F.k, F.k, 0)
  | .issnan F => (F.k, 0, 0)
  | .scaled _ => (32, 0, 0)

/-- The format of a float result (R65). -/
def Cmd.resultFmt : Cmd → Option Fmt
  | .arith _ F => some F
  | .i2f _ F => some F
  | .f2i _ _ => none
  | .f2iRmm _ _ => none
  | .f2f _ G => some G
  | .cmp _ _ => none
  | .issnan _ => none
  | .scaled F => some F

/-- The width of the result in `RES` (R65). -/
def Cmd.resultWidth : Cmd → Nat
  | .arith _ F => F.k
  | .i2f _ F => F.k
  | .f2i _ T => T.n
  | .f2iRmm _ T => T.n
  | .f2f _ G => G.k
  | .cmp _ _ => 1
  | .issnan _ => 1
  | .scaled F => F.k

/-- The command runs the rounding pass and keeps its record when it does: `W` of R67. -/
def Cmd.writesRecord : Cmd → Bool
  | .arith _ _ => true
  | .i2f _ _ => false
  | .f2i _ _ => false
  | .f2iRmm _ _ => false
  | .f2f F G => G.p < F.p
  | .cmp _ _ => false
  | .issnan _ => false
  | .scaled _ => false

namespace Machine

/-- The operand of format `F` a register holds (R26, R64). -/
def operandOf (F : Fmt) (r : MarkedReg) : Word := lowBits F.k r.val

/-- Two registers are the same to a command that reads `n` low bits of one (R26, R64); any two are when it reads none. -/
def MarkedReg.AgreeOn (n : Nat) (r r' : MarkedReg) : Prop :=
  0 < n → r.written = r'.written ∧ r.val.toNat % 2 ^ n = r'.val.toNat % 2 ^ n

/-- A register a command may take an operand of format `F` from: written (R35) and canonical (R85). -/
def OperandOk (F : Fmt) (r : MarkedReg) : Prop :=
  r.written = true ∧ classOf F (operandOf F r) ≠ .nonCanonical

/-- The float operands a command reads may be taken (R64). -/
def OperandsOk (c : Cmd) (s : State) : Prop :=
  match c.floatOperands with
  | none => s.opa.written = true
  | some (F, n) => OperandOk F s.opa ∧ (2 ≤ n → OperandOk F s.opb) ∧ (3 ≤ n → OperandOk F s.opc)

/-- `SCALED` has a record of its format and an exponent in range (R187). -/
def RecordOk (F : Fmt) (s : State) : Prop :=
  s.raw.valid = true ∧ s.raw.fmt = F ∧
    F.emin ≤ scaledExp s.raw (scaleOf s.opa.val) ∧ scaledExp s.raw (scaleOf s.opa.val) ≤ F.emax

/-- A command is not one of the forms of misuse of R209 in this state. -/
def CommandOk (c : Cmd) (s : State) : Prop :=
  (c.usesRM = true → s.rm.toNat < 6) ∧ OperandsOk c s ∧ (∀ F, c = .scaled F → RecordOk F s)

/-- A valid record is normalised and rounded to its format's precision (R28), and its exponent is one that can occur ("at
most a few times 16494 in magnitude", D15). -/
def Raw.Wf (r : Raw) : Prop :=
  r.valid = true →
    2 ^ 126 ≤ r.sig.toNat ∧ r.sig.toNat < 2 ^ 127 ∧ r.sig.toNat % 2 ^ (127 - r.fmt.p) = 0 ∧
      -65976 ≤ r.exp.toInt ∧ r.exp.toInt ≤ 65976

/-- The invariant of an engine instance: its record is well formed, and a record exists only after some command has written
`RES`. -/
def State.Inv (s : State) : Prop := s.raw.Wf ∧ (s.raw.valid = true → s.res.written = true)

/-- `k` steps from `s` meet no misuse: no step is refused, and none can fault. -/
def SafeRun (k : Nat) (s : State) : Prop := ∃ t, Sys2Proof.core.run k s = .next t

end Machine
end Sys2Proof
end

