-- ==== Sys2Proof/Safety/Reference.lean ====
section
/-! DEFINITION. The rules of the rounding pass read over the real numbers, for claims only: the value of a pattern (R84,
R170), the real number an exact intermediate stands for (R100), and rounding and packing of a real number (R101 to R110).
No step of the machine uses this file. -/

namespace Sys2Proof.Machine

open scoped Classical

/-- The value of a finite pattern: `(-1)^s * N * 2^e` (R84, R85). -/
noncomputable def valueOf (F : Fmt) (x : Word) : ℝ :=
  (if signOf F x then -1 else 1) * (intSigOf F x : ℝ) * 2 ^ intExpOf F x

/-- The extended real value of a pattern that is no NaN (R170). -/
noncomputable def extValueOf (F : Fmt) (x : Word) : EReal :=
  if isInf F x then
    if signOf F x then ⊥ else ⊤
  else (valueOf F x : EReal)

/-- The value of the record: `(-1)^Sign * (Sig / 2^126) * 2^Exp` (R28). -/
noncomputable def recordValue (r : Raw) : ℝ :=
  (if r.sign then -1 else 1) * ((r.sig.toNat : ℝ) / 2 ^ 126) * 2 ^ r.exp.toInt

/-- The exact intermediate `(N, e, st)` for format `F` stands for the magnitude `x` (R100). -/
def StandsFor (F : Fmt) (N : Nat) (e : Int) (st : Bool) (x : ℝ) : Prop :=
  0 < N ∧
    if st then F.p + 2 ≤ bitlen N ∧ (N : ℝ) * 2 ^ e < x ∧ x < ((N : ℝ) + 1) * 2 ^ e
    else x = (N : ℝ) * 2 ^ e

/-- A nonnegative real rounded to an integer, by the words of R102: whether anything is discarded, and whether the part
discarded is above, at or below one half. -/
noncomputable def refRound (m : RMode) (sign : Bool) (y : ℝ) : Rounded :=
  let q := ⌊y⌋₊
  let r := y - q
  let up : Prop :=
    match m with
    | .ne => 1 / 2 < r ∨ r = 1 / 2 ∧ q % 2 = 1
    | .minmag => False
    | .min => sign = true ∧ r ≠ 0
    | .max => sign = false ∧ r ≠ 0
    | .nmm => 1 / 2 ≤ r
    | .stk => r ≠ 0 ∧ q % 2 = 0
  ⟨if up then q + 1 else q, decide (r ≠ 0), decide up⟩

/-- A positive real rounded to `p` bits with unbounded exponent (R103). -/
noncomputable def refUnbounded (F : Fmt) (m : RMode) (sign : Bool) (x : ℝ) : Unbounded :=
  let E := Int.log 2 x
  let r := refRound m sign (x / 2 ^ (E - F.p + 1))
  if r.q = 2 ^ F.p then ⟨2 ^ (F.p - 1), E + 1, r.inexact, r.incremented⟩
  else ⟨r.q, E, r.inexact, r.incremented⟩

/-- A positive real rounded once to the subnormal grid of quantum `2^(emin - p + 1)` (R108). -/
noncomputable def refSubnormal (F : Fmt) (m : RMode) (sign : Bool) (x : ℝ) : Rounded :=
  refRound m sign (x / 2 ^ (F.emin - F.p + 1))

/-- What the rounding pass leaves for the exact magnitude `x > 0` (R103 to R108). -/
noncomputable def refRoundPack (F : Fmt) (m : RMode) (tp : BitVec 1) (sign : Bool) (x : ℝ) : Completion :=
  let E := Int.log 2 x
  let u := refUnbounded F m sign x
  let tiny : Bool := if tp = 0#1 then E < F.emin else u.Eu < F.emin
  let w := refSubnormal F m sign x
  let d : Delivered :=
    if F.emin ≤ E then
      if F.emax < u.Eu then
        if m.overflowsToInf sign then ⟨infOf F sign, 0x25#7⟩ else ⟨maxFiniteOf F sign, 0x05#7⟩
      else
        ⟨packNormal F sign (u.Eu + F.bias).toNat u.qu,
          (if u.inexact then 0x01#7 else 0#7) ||| (if u.incremented then 0x20#7 else 0#7)⟩
    else
      ⟨if w.q = 2 ^ (F.p - 1) then packNormal F sign 1 w.q else pack F sign 0 w.q,
        (if w.inexact then 0x01#7 else 0#7) ||| (if w.incremented then 0x20#7 else 0#7) |||
          (if tiny && w.inexact then 0x02#7 else 0#7)⟩
  ⟨d.res, (if tiny then 0x40#7 else 0#7) ||| d.fl,
    .write ⟨true, F, sign, u.inexact, u.incremented, tiny, BitVec.ofInt 32 u.Eu,
      BitVec.ofNat 128 (u.qu * 2 ^ (127 - F.p))⟩⟩

end Sys2Proof.Machine
end

