-- ==== Sys2Proof/Certificates/Slice0/Obligations.lean ====
section
/-! DEFINITION. The statements for the provers, each a rule of the spec read over the model. -/

open Sys2Proof Sys2Proof.Machine

/-! ### Encoding -/

/-- R67: the words of one command of each family, written out from the table's word values, and R67's own examples. -/
def Obligations.WordsDecodeToTheirRows : Prop :=
  decode 0x0001#16 = .ok .addF32 ∧ decode 0x0106#16 = .ok .sqrtF64 ∧ decode 0x0307#16 = .ok .fmaF128 ∧
  decode 0x0510#16 = .ok .i2fU32F64 ∧ decode 0x0811#16 = .ok .f2iF32I64 ∧ decode 0x0112#16 = .ok .f2iRmmF64I32 ∧
  decode 0x0113#16 = .ok .f2fF64F32 ∧ decode 0x0413#16 = .ok .f2fF32F64 ∧ decode 0x0225#16 = .ok .ltsX80 ∧
  decode 0x0326#16 = .ok .issnanF128 ∧ decode 0x0330#16 = .ok .scaledF128

/-- R60, R67: decoding the word of an instruction gives the instruction back. -/
def Obligations.DecodeOfEncodeIsTheInstruction : Prop :=
  ∀ i : Instr, decode (encode i) = .ok i

/-- R60 to R67, both ways: a word decodes to an instruction exactly when it is that instruction's word. No bit of a word is
dropped, no two words share a command, and no word beyond the 119 is accepted. -/
def Obligations.DecodeAcceptsExactlyTheEncodedWords : Prop :=
  ∀ (w : CmdWord) (i : Instr), decode w = .ok i ↔ w = encode i

/-- R66, its conditions written out on the bits of the word: every other word is reserved, and a host write of a reserved
word to `CMD` is refused. That a host write stands in the model's own list and that its bits above 16 are ignored are the
model's (log entries 3 and 13). -/
def Obligations.ReservedWordsAreRefused : Prop :=
  ∀ (s : State) (v : Word) (rest : List HostOp), s.host = .wr 0 v :: rest →
    let w := v.toNat % 2 ^ 16
    let zeroField := w / 2 ^ 12
    let aux := w / 2 ^ 10 % 4
    let fmt := w / 2 ^ 8 % 4
    let op := w % 2 ^ 8
    (¬ (zeroField = 0 ∧
        op ∈ [0x01, 0x02, 0x03, 0x04, 0x05, 0x06, 0x07, 0x10, 0x11, 0x12, 0x13, 0x20, 0x21, 0x22, 0x23, 0x24, 0x25,
          0x26, 0x30] ∧
        (aux = 0 ∨ op ∈ [0x10, 0x11, 0x12, 0x13]) ∧ (op = 0x13 → aux ≠ fmt) ∧ (op = 0x30 → fmt ≠ 2)) ↔
      ∃ why, step s = .refused (.reservedCommand why))

/-! ### Steps, the host's port and reset

That the host's operations stand in a list of the state, and the values it has read in another, is the model's own form
(log entry 3); every statement of this part is made in it. -/

/-- R22: a host write to `CMD` of a word that decodes runs the instruction, and takes nothing but that operation from the
host's list. That the word is the low 16 bits of the value written, those above ignored, is DEDUCED from R21 (log entry 13),
and the list is the model's own (log entry 3). -/
def Obligations.StepRunsTheDecodedCommand : Prop :=
  ∀ (s : State) (v : Word) (rest : List HostOp) (i : Instr), s.host = .wr 0 v :: rest →
    decode (v.extractLsb' 0 16) = .ok i → step s = exec i { s with host := rest }

/-- R202: "between two host accesses the state is constant". That the model then steps to the same state is its own choice
(log entry 3). -/
def Obligations.NothingChangesBetweenAccesses : Prop :=
  ∀ s : State, s.host = [] → step s = .next s

/-- R34: the state after reset, as `State.reset` and as the reset event leaves it in any state of the instance; that the host's
operations to come and the values it has read stay is the model's own (log entry 3). -/
def Obligations.ResetLeavesTheStateOfTheTable : Prop :=
  let afterReset : State → Prop := fun t =>
    t.rm = 0#3 ∧ t.tp = Config.tininessReset ∧ t.flags = 0#7 ∧ t.opa.written = false ∧ t.opb.written = false ∧
      t.opc.written = false ∧ t.res.written = false ∧ t.raw.valid = false
  afterReset State.reset ∧
    ∀ (s : State) (rest : List HostOp), s.host = .reset :: rest →
      ∃ t, step s = .next t ∧ afterReset t ∧ t.host = rest ∧ t.reads = s.reads

/-- R21, R55: a host write to a writable register stores the low bits of the value, as wide as the register, and "has only
the effect of storing the value"; an operand register is written from then on (R35). -/
def Obligations.HostWriteOnlyStoresTheValue : Prop :=
  ∀ (s : State) (reg : Nat) (v : Word) (rest : List HostOp), s.host = .wr reg v :: rest →
    (reg = 1 → step s = .next { s with host := rest, rm := v.extractLsb' 0 3 }) ∧
    (reg = 2 → step s = .next { s with host := rest, tp := v.extractLsb' 0 1 }) ∧
    (reg = 3 → step s = .next { s with host := rest, flags := v.extractLsb' 0 7 }) ∧
    (reg = 4 → step s = .next { s with host := rest, opa := ⟨v, true⟩ }) ∧
    (reg = 5 → step s = .next { s with host := rest, opb := ⟨v, true⟩ }) ∧
    (reg = 6 → step s = .next { s with host := rest, opc := ⟨v, true⟩ })

/-- R21, R29, R55: a host read delivers the register zero-extended and has no side effect on the instance. The record's
registers are read while the record is valid; the bits of `RAW_ATTR` are those R29 lists. -/
def Obligations.HostReadDeliversTheRegister : Prop :=
  ∀ (s : State) (reg : Nat) (rest : List HostOp), s.host = .rd reg :: rest →
    let delivers : Word → Prop := fun v => step s = .next { s with host := rest, reads := v :: s.reads }
    (reg = 1 → delivers (BitVec.ofNat 128 s.rm.toNat)) ∧
    (reg = 2 → delivers (BitVec.ofNat 128 s.tp.toNat)) ∧
    (reg = 3 → delivers (BitVec.ofNat 128 s.flags.toNat)) ∧
    (reg = 4 → s.opa.written = true → delivers s.opa.val) ∧
    (reg = 5 → s.opb.written = true → delivers s.opb.val) ∧
    (reg = 6 → s.opc.written = true → delivers s.opc.val) ∧
    (reg = 7 → s.res.written = true → delivers s.res.val) ∧
    (reg = 8 → s.raw.valid = true → delivers s.raw.sig) ∧
    (reg = 9 → s.raw.valid = true → delivers (BitVec.ofNat 128 s.raw.exp.toNat)) ∧
    (reg = 10 → s.raw.valid = true →
      delivers (BitVec.ofNat 128 (s.raw.sign.toNat + 2 * s.raw.inexact.toNat + 4 * s.raw.incre.toNat +
        8 * s.raw.tiny.toNat + 16 * s.raw.fmt.code.toNat + 64)))

/-- R29: a host read of a register of the record while the record is invalid delivers some value of the register's width,
bits 7:6 of `RAW_ATTR` reading 0, and changes no register; which value it is, nothing says. The count of draws is the
model's own (log entry 2). -/
def Obligations.ReadOfAnInvalidRecordIsSomeValue : Prop :=
  ∀ (s : State) (reg : Nat) (rest : List HostOp), s.host = .rd reg :: rest → s.raw.valid = false →
    8 ≤ reg → reg ≤ 10 →
    ∃ v : Word, step s = .next { s with host := rest, reads := v :: s.reads, draws := s.draws + 1 } ∧
      (reg = 9 → v.toNat < 2 ^ 32) ∧ (reg = 10 → v.toNat < 2 ^ 6)

/-- R21, R22, R27, R29, R35 (item U4, U7): the accesses that are misuse are refused: a read of `CMD`, a write to a read-only
register, any access to a register number of 11 or above, a read of an operand register never written or of `RES` before
the first command. The names of the refusals are the model's (log entry 12). -/
def Obligations.MisusedAccessesAreRefused : Prop :=
  ∀ (s : State) (reg : Nat) (v : Word) (rest : List HostOp),
    (s.host = .rd 0 :: rest → step s = .refused .writeOnlyRegister) ∧
    (s.host = .wr reg v :: rest → 7 ≤ reg → reg ≤ 10 → step s = .refused .readOnlyRegister) ∧
    (s.host = .wr reg v :: rest → 11 ≤ reg → step s = .refused .noSuchRegister) ∧
    (s.host = .rd reg :: rest → 11 ≤ reg → step s = .refused .noSuchRegister) ∧
    (s.host = .rd 4 :: rest → s.opa.written = false → step s = .refused .unwrittenRead) ∧
    (s.host = .rd 5 :: rest → s.opb.written = false → step s = .refused .unwrittenRead) ∧
    (s.host = .rd 6 :: rest → s.opc.written = false → step s = .refused .unwrittenRead) ∧
    (s.host = .rd 7 :: rest → s.res.written = false → step s = .refused .unwrittenRead)

/-! ### Invariants and rules of the whole machine -/

/-- The invariant holds after reset. -/
def Obligations.InvariantHoldsAtReset : Prop := State.reset.Inv

/-- R28, D15: every step keeps the invariant. A valid record is normalised, rounded to the precision of its format and of an
exponent its 32 bits hold with room, whichever command, access or reset event the step is. The bound is the model's
(log entry 10). -/
def Obligations.EveryStepKeepsTheInvariant : Prop :=
  ∀ s t : State, s.Inv → step s = .next t → t.Inv

/-- R23, R24, R26: the engine never writes `RM`, `TP` or an operand register; only a host write to that register or the
reset event changes one. -/
def Obligations.OnlyTheHostChangesModesAndOperands : Prop :=
  ∀ s t : State, step s = .next t →
    (t.rm ≠ s.rm → ∃ v rest, s.host = .wr 1 v :: rest ∨ s.host = .reset :: rest) ∧
    (t.tp ≠ s.tp → ∃ v rest, s.host = .wr 2 v :: rest ∨ s.host = .reset :: rest) ∧
    (t.opa ≠ s.opa → ∃ v rest, s.host = .wr 4 v :: rest ∨ s.host = .reset :: rest) ∧
    (t.opb ≠ s.opb → ∃ v rest, s.host = .wr 5 v :: rest ∨ s.host = .reset :: rest) ∧
    (t.opc ≠ s.opc → ∃ v rest, s.host = .wr 6 v :: rest ∨ s.host = .reset :: rest)

/-- R25, R225: "The engine never clears a flag": a step after which some flag is clear that was set is a host write to
`FLAGS` or the reset event. -/
def Obligations.OnlyTheHostClearsFlags : Prop :=
  ∀ s t : State, step s = .next t → s.flags &&& t.flags ≠ s.flags →
    ∃ v rest, s.host = .wr 3 v :: rest ∨ s.host = .reset :: rest

/-- R222: "Host register reads and writes other than to `CMD` do not disturb the record", and neither do they disturb
`RES`: only a command or the reset event does. -/
def Obligations.OnlyCommandsChangeResultAndRecord : Prop :=
  ∀ s t : State, step s = .next t → (t.res ≠ s.res ∨ t.raw ≠ s.raw) →
    ∃ v rest, s.host = .wr 0 v :: rest ∨ s.host = .reset :: rest

/-- R207: a step of one instance leaves every other as it was and is that instance's own step, and steps of two instances
give the same in either order. -/
def Obligations.InstancesAreIndependent : Prop :=
  (∀ (sys sys' : System) (k : Nat), System.stepAt k sys = .next sys' →
    (∃ s t, sys[k]? = some s ∧ step s = .next t ∧ sys'[k]? = some t) ∧ ∀ j, j ≠ k → sys'[j]? = sys[j]?) ∧
  (∀ (sys a b : System) (j k : Nat), j ≠ k → System.stepAt k sys = .next a → System.stepAt j a = .next b →
    ∃ c, System.stepAt j sys = .next c ∧ System.stepAt k c = .next b)

/-! ### All commands -/

/-- R200, R209: a command that is no misuse completes, writes `RES` and only ORs into `FLAGS`; a command that is misuse is
refused. `CommandOk` is the conditions R209 lists; no command faults. -/
def Obligations.CommandsCompleteUnlessMisused : Prop :=
  ∀ (i : Instr) (s : State),
    (CommandOk i.toCmd s →
      ∃ t, exec i s = .next t ∧ t.res.written = true ∧ s.flags &&& t.flags = s.flags) ∧
    (¬ CommandOk i.toCmd s → ∃ r, exec i s = .refused r)

/-- R23, R35, R85 (items U2, U3, U4): the misuse of a command by name. A reserved mode refuses the commands that use `RM`;
every command reads `OPA`; an unwritten or non-canonical second or third operand refuses like the first. R209 gives the forms of misuse no names and no
order: the names, and which one is named when several hold (the mode before the operands, the operands in order, unwritten
before non-canonical), are the model's choice (log entry 12). -/
def Obligations.MisusedCommandsAreRefusedByName : Prop :=
  ∀ (i : Instr) (s : State) (F : Fmt) (n : Nat),
    (i.toCmd.usesRM = true → 6 ≤ s.rm.toNat → exec i s = .refused .reservedRoundingMode) ∧
    ((i.toCmd.usesRM = true → s.rm.toNat < 6) → s.opa.written = false → exec i s = .refused .unwrittenOperand) ∧
    ((i.toCmd.usesRM = true → s.rm.toNat < 6) → i.toCmd.floatOperands = some (F, n) →
      (s.opa.written = true → classOf F (operandOf F s.opa) = .nonCanonical →
        exec i s = .refused .nonCanonicalOperand) ∧
      (OperandOk F s.opa → 2 ≤ n → s.opb.written = false → exec i s = .refused .unwrittenOperand) ∧
      (OperandOk F s.opa → 2 ≤ n → s.opb.written = true → classOf F (operandOf F s.opb) = .nonCanonical →
        exec i s = .refused .nonCanonicalOperand) ∧
      (OperandOk F s.opa → OperandOk F s.opb → 3 ≤ n → s.opc.written = false →
        exec i s = .refused .unwrittenOperand) ∧
      (OperandOk F s.opa → OperandOk F s.opb → 3 ≤ n → s.opc.written = true →
        classOf F (operandOf F s.opc) = .nonCanonical → exec i s = .refused .nonCanonicalOperand))

/-- The frame of every command: a command writes `RES`, ORs into `FLAGS` and sets the record, and nothing else of the state
changes (R20, R26, R33). The last three fields are the model's own. -/
def Obligations.CommandFrame : Prop :=
  ∀ (i : Instr) (s t : State), exec i s = .next t →
    t.rm = s.rm ∧ t.tp = s.tp ∧ t.opa = s.opa ∧ t.opb = s.opb ∧ t.opc = s.opc ∧
      s.flags &&& t.flags = s.flags ∧ t.res.written = true ∧
      t.host = s.host ∧ t.reads = s.reads ∧ t.draws = s.draws

/-- R67 (column RAW), R113: `SCALED` leaves the record; `I2F`, the float to integer conversions, the widenings and the
compares invalidate it; an arithmetic command or a narrowing either invalidates it or leaves a record of the result's
format. That the other fields of an invalidated record stay is the model's choice (log entry 9). -/
def Obligations.RecordEffectOfCommands : Prop :=
  ∀ (i : Instr) (s t : State), exec i s = .next t →
    (∀ F, i.toCmd = .scaled F → t.raw = s.raw) ∧
    (i.toCmd.writesRecord = false → (∀ F, i.toCmd ≠ .scaled F) → t.raw.valid = false) ∧
    (i.toCmd.writesRecord = true → t.raw.valid = false ∨ some t.raw.fmt = i.toCmd.resultFmt) ∧
    (t.raw.valid = false → t.raw = { s.raw with valid := false })

/-- R27, R65, R85: a result stands in the low bits of `RES`, zero above; a float result is never a non-canonical `X80`
pattern. -/
def Obligations.ResultsFitAndAreCanonical : Prop :=
  ∀ (i : Instr) (s t : State), exec i s = .next t →
    t.res.val.toNat < 2 ^ i.toCmd.resultWidth ∧
    ∀ F, i.toCmd.resultFmt = some F → classOf F t.res.val ≠ .nonCanonical

/-- R26, R64: a command reads of its operand registers only the low bits of each operand's width, and a register not listed
for it not at all. Two states whose registers agree in what the command reads get the same result, flags and record; a
register it does not read may hold anything, written or not. For every command: the width of a float operand is its
format's, of an integer its type's, of the scale of `SCALED` 32. -/
def Obligations.HighOperandBitsAreIgnored : Prop :=
  ∀ (i : Instr) (s t : State) (a b c : MarkedReg), a.AgreeOn i.toCmd.readWidths.1 s.opa →
    b.AgreeOn i.toCmd.readWidths.2.1 s.opb → c.AgreeOn i.toCmd.readWidths.2.2 s.opc → exec i s = .next t →
    exec i { s with opa := a, opb := b, opc := c } = .next { t with opa := a, opb := b, opc := c }

/-- R67 ("Uses RM: no"), R152, R179, R186: `F2I_RMM`, the compares, `ISSNAN` and `SCALED` read neither `RM` nor `TP`. -/
def Obligations.CommandsWithoutRmIgnoreTheEnvironment : Prop :=
  ∀ (i : Instr) (s t : State) (rm : BitVec 3) (tp : BitVec 1), i.toCmd.usesRM = false → exec i s = .next t →
    exec i { s with rm := rm, tp := tp } = .next { t with rm := rm, tp := tp }

/-- R221: what a command leaves depends on `TP` only in the flags `Underflow` (0x02) and `Tiny` (0x40) and in `RAW.Tiny`. -/
def Obligations.TininessPolicyTouchesOnlyTinyAndUnderflow : Prop :=
  ∀ (i : Instr) (s t : State) (tp : BitVec 1), exec i s = .next t →
    ∃ u, exec i { s with tp := tp } = .next u ∧ u.res = t.res ∧ u.flags &&& 0x3D#7 = t.flags &&& 0x3D#7 ∧
      u.raw = { t.raw with tiny := u.raw.tiny }

/-! ### Formats and NaNs -/

/-- R87, R88: the named patterns of each format have the values the rules give. -/
def Obligations.NamedPatternsHaveTheirValues : Prop :=
  infOf .f32 false = 0x7F800000#128 ∧ maxFiniteOf .f32 false = 0x7F7FFFFF#128 ∧
  infOf .f64 false = 0x7FF0000000000000#128 ∧ maxFiniteOf .f64 false = 0x7FEFFFFFFFFFFFFF#128 ∧
  infOf .x80 false = 0x7FFF8000000000000000#128 ∧ maxFiniteOf .x80 false = 0x7FFEFFFFFFFFFFFFFFFF#128 ∧
  infOf .f128 false = 0x7FFF0000000000000000000000000000#128 ∧
  maxFiniteOf .f128 false = 0x7FFEFFFFFFFFFFFFFFFFFFFFFFFFFFFF#128 ∧
  infOf .f32 true = 0xFF800000#128 ∧ zeroOf .f64 true = 0x8000000000000000#128 ∧
  defaultNaN .f32 = 0x7FC00000#128 ∧ defaultNaN .f64 = 0x7FF8000000000000#128 ∧
  defaultNaN .x80 = 0x7FFFC000000000000000#128 ∧ defaultNaN .f128 = 0x7FFF8000000000000000000000000000#128

/-- R90: `NaNResult` quiets every NaN operand and takes the one of the largest magnitude, the positive one of two that
differ only in sign; it is a quiet NaN and does not depend on the order of the operands; invalid means that some operand
is signaling. -/
def Obligations.NanSelectionIsLargestQuietedOperand : Prop :=
  ∀ (F : Fmt) (xs : List Word), (∀ x ∈ xs, x.toNat < 2 ^ F.k) → (∃ x ∈ xs, isNaN F x = true) →
    (∃ x ∈ xs, isNaN F x = true ∧ nanSelect F xs = quiet F x) ∧
    (∀ y ∈ xs, isNaN F y = true → magOf F (quiet F y) ≤ magOf F (nanSelect F xs)) ∧
    (∀ y ∈ xs, isNaN F y = true → magOf F (quiet F y) = magOf F (nanSelect F xs) →
      signOf F (nanSelect F xs) = true → signOf F y = true) ∧
    classOf F (nanSelect F xs) = .qnan ∧
    (∀ ys, xs.Perm ys → nanSelect F ys = nanSelect F xs) ∧
    (nanInvalid F xs = true ↔ ∃ x ∈ xs, isSNaN F x = true)

/-- R91: in every arithmetic command the NaN test comes first. With a NaN operand the command completes with
`NaNResult`'s result, `Invalid` exactly when some operand is signaling, no other flag, and the record invalidated.
That the other fields of the record stay when it is invalidated is the model's choice (log entry 9). -/
def Obligations.ArithmeticNanPath : Prop :=
  ∀ (i : Instr) (s : State) (op : ArithOp) (F : Fmt), i.toCmd = .arith op F → CommandOk i.toCmd s →
    let xs : List Word :=
      match op with
      | .sqrt => [operandOf F s.opa]
      | .fma => [operandOf F s.opa, operandOf F s.opb, operandOf F s.opc]
      | _ => [operandOf F s.opa, operandOf F s.opb]
    xs.any (isNaN F) = true →
    exec i s = .next (s.complete ⟨nanSelect F xs, if xs.any (isSNaN F) then 0x10#7 else 0#7, .invalidate⟩)

/-! ### The rounding engine -/

/-- R101: `RoundInt` in each mode, and `ShiftRightGS`. -/
def Obligations.RoundIntFollowsItsRule : Prop :=
  (∀ (m : RMode) (sign : Bool) (q : Nat) (g s : Bool),
    let r := roundInt m sign ⟨q, g, s⟩
    r.inexact = (g || s) ∧ (r.incremented = true ↔ r.q = q + 1) ∧ (r.incremented = false ↔ r.q = q) ∧
    (r.incremented = true ↔
      match m with
      | .ne => g = true ∧ (s = true ∨ q % 2 = 1)
      | .minmag => False
      | .min => sign = true ∧ (g = true ∨ s = true)
      | .max => sign = false ∧ (g = true ∨ s = true)
      | .nmm => g = true
      | .stk => (g = true ∨ s = true) ∧ q % 2 = 0)) ∧
  (∀ (N sh : Nat) (st : Bool), 1 ≤ sh →
    (cutAt N sh st).q = N / 2 ^ sh ∧ ((cutAt N sh st).g = true ↔ N / 2 ^ (sh - 1) % 2 = 1) ∧
    ((cutAt N sh st).s = true ↔ N % 2 ^ (sh - 1) ≠ 0 ∨ st = true))

/-- R106: the overflow table. When the unrounded value is no smaller than the smallest normal and the rounded exponent is
above `emax`, the result is the row's, with `Overflow` and `Inexact`, and `Incremented` exactly with an infinity. -/
def Obligations.OverflowDeliversTheTable : Prop :=
  ∀ (F : Fmt) (m : RMode) (tp : BitVec 1) (sign : Bool) (N : Nat) (e : Int) (st : Bool), 0 < N →
    F.emin ≤ unroundedExp N e → F.emax < (roundUnbounded F m sign N e st).Eu →
    let c := roundPack F m tp sign N e st
    let inf : Prop := c.res = infOf F sign ∧ c.fl = 0x25#7
    let max : Prop := c.res = maxFiniteOf F sign ∧ c.fl = 0x05#7
    match m, sign with
    | .ne, _ => inf
    | .minmag, _ => max
    | .min, false => max
    | .min, true => inf
    | .max, false => inf
    | .max, true => max
    | .nmm, _ => inf
    | .stk, _ => max

/-- R100 to R111: the rounding pass computed on an exact intermediate is the rounding of the real number it stands for:
rounded to `p` bits with unbounded exponent for the record, and delivered by overflow, as a normal, or rounded once to the
subnormal grid. So nothing it leaves depends on the choice of the intermediate. -/
def Obligations.RoundPackRoundsTheRealNumber : Prop :=
  ∀ (F : Fmt) (m : RMode) (tp : BitVec 1) (sign : Bool) (N : Nat) (e : Int) (st : Bool) (x : ℝ),
    StandsFor F N e st x → roundPack F m tp sign N e st = refRoundPack F m tp sign x

/-- R109: what each flag of a rounding pass means, in terms of the exact magnitude `x` and the delivered pattern. -/
def Obligations.RoundingFlagsSayWhatHappened : Prop :=
  ∀ (F : Fmt) (m : RMode) (tp : BitVec 1) (sign : Bool) (N : Nat) (e : Int) (st : Bool) (x : ℝ),
    StandsFor F N e st x →
    let c := roundPack F m tp sign N e st
    let u := refUnbounded F m sign x
    (c.fl.getLsbD 0 = true ↔ isInf F c.res = true ∨ |valueOf F c.res| ≠ x) ∧
    (c.fl.getLsbD 5 = true ↔ isInf F c.res = true ∨ x < |valueOf F c.res|) ∧
    (c.fl.getLsbD 2 = true ↔ (2 : ℝ) ^ F.emin ≤ x ∧ F.emax < u.Eu) ∧
    (c.fl.getLsbD 6 = true ↔ if tp = 0#1 then x < (2 : ℝ) ^ F.emin else u.Eu < F.emin) ∧
    (c.fl.getLsbD 1 = true ↔ c.fl.getLsbD 6 = true ∧ c.fl.getLsbD 0 = true) ∧
    c.fl.getLsbD 3 = false ∧ c.fl.getLsbD 4 = false

/-- R102: unless it overflows, the rounding pass delivers the value of the format its mode asks for. `MIN`: the largest no
larger. `MAX`: the smallest no smaller. `MINMAG`: the largest in magnitude no larger in magnitude. `NE` and `NMM`: one that no
value of the format is nearer than; of two equally near, `NE` the one whose last bit is 0 and `NMM` the one of larger magnitude.
`STK`: a neighbour of the exact value, and unless the value is exact the one whose last bit is 1. -/
def Obligations.DeliveredValueIsTheModesChoice : Prop :=
  ∀ (F : Fmt) (m : RMode) (tp : BitVec 1) (sign : Bool) (N : Nat) (e : Int) (st : Bool) (x X : ℝ),
    StandsFor F N e st x → X = (if sign then -x else x) →
    let c := roundPack F m tp sign N e st
    let d := valueOf F c.res
    let representable : Word → Prop := fun y => isFin F y = true ∨ isZero F y = true
    let tie : Prop := ∃ y, representable y ∧ valueOf F y ≠ d ∧ |valueOf F y - X| = |d - X|
    c.fl.getLsbD 2 = false →
    representable c.res ∧
    (m = .min → d ≤ X ∧ ∀ y, representable y → valueOf F y ≤ X → valueOf F y ≤ d) ∧
    (m = .max → X ≤ d ∧ ∀ y, representable y → X ≤ valueOf F y → d ≤ valueOf F y) ∧
    (m = .minmag → |d| ≤ |X| ∧ ∀ y, representable y → |valueOf F y| ≤ |X| → |valueOf F y| ≤ |d|) ∧
    (m = .ne ∨ m = .nmm → ∀ y, representable y → |d - X| ≤ |valueOf F y - X|) ∧
    (m = .ne → tie → c.res.getLsbD 0 = false) ∧
    (m = .nmm → tie → |X| < |d|) ∧
    (m = .stk → (d ≠ X → c.res.getLsbD 0 = true) ∧
      ∀ y, representable y → ¬ (d < valueOf F y ∧ valueOf F y ≤ X) ∧ ¬ (X ≤ valueOf F y ∧ valueOf F y < d))

/-- R112: rounding an exactly representable value, from any exact intermediate of it and in every mode, delivers its
encoding, and raises `Tiny` alone if it is subnormal and nothing otherwise. -/
def Obligations.RoundingIsIdempotent : Prop :=
  ∀ (F : Fmt) (m : RMode) (tp : BitVec 1) (y : Word) (N : Nat) (e : Int), y.toNat < 2 ^ F.k → isFin F y = true →
    0 < N → (N : ℝ) * 2 ^ e = |valueOf F y| →
    (roundPack F m tp (signOf F y) N e false).res = y ∧
    (roundPack F m tp (signOf F y) N e false).fl = if classOf F y = .subnormal then 0x40#7 else 0#7

/-! ### Arithmetic -/

/-- R121, R122, R128: `ADD` and `SUB` of finite nonzero operands round the exact sum or difference once; an exact
zero is `+0`, or `-0` in mode `MIN`, with no flag and no record. That the other fields of the record stay when it is
invalidated is the model's choice (log entry 9). -/
def Obligations.AddAndSubRoundTheExactSum : Prop :=
  ∀ (i : Instr) (s : State) (op : ArithOp) (F : Fmt) (m : RMode) (x : ℝ) (sg : Bool),
    i.toCmd = .arith op F → RMode.ofBits s.rm = some m → OperandOk F s.opa → OperandOk F s.opb →
    isFin F (operandOf F s.opa) = true → isFin F (operandOf F s.opb) = true →
    (op = .add ∧ x = valueOf F (operandOf F s.opa) + valueOf F (operandOf F s.opb) ∨
      op = .sub ∧ x = valueOf F (operandOf F s.opa) - valueOf F (operandOf F s.opb)) →
    (sg = true ↔ x < 0) →
    (x ≠ 0 → exec i s = .next (s.complete (refRoundPack F m s.tp sg |x|))) ∧
    (x = 0 → exec i s = .next (s.complete ⟨zeroOf F (m == .min), 0#7, .invalidate⟩))

/-- R121, R122, R128: `ADD` and `SUB` with an infinite or zero operand and no NaN. `sb'` and `b'` are the second
operand's sign and pattern, inverted in sign for `SUB`. A zero operand returns the other unchanged. That the other
fields of the record stay when it is invalidated is the model's choice (log entry 9). -/
def Obligations.AddAndSubOfInfinitiesAndZeros : Prop :=
  ∀ (i : Instr) (s : State) (op : ArithOp) (F : Fmt) (m : RMode) (sb' : Bool) (b' : Word),
    i.toCmd = .arith op F → RMode.ofBits s.rm = some m → OperandOk F s.opa → OperandOk F s.opb →
    let a := operandOf F s.opa
    let b := operandOf F s.opb
    let sa := signOf F a
    isNaN F a = false → isNaN F b = false →
    (op = .add ∧ sb' = signOf F b ∧ b' = b ∨
      op = .sub ∧ sb' = !signOf F b ∧ b' = b ^^^ BitVec.ofNat 128 (2 ^ (F.k - 1))) →
    let gives : Word → BitVec 7 → Prop := fun r fl => exec i s = .next (s.complete ⟨r, fl, .invalidate⟩)
    (isInf F a = true → isInf F b = true → sa ≠ sb' → gives (defaultNaN F) 0x10#7) ∧
    (isInf F a = true → isInf F b = true → sa = sb' → gives (infOf F sa) 0#7) ∧
    (isInf F a = true → isInf F b = false → gives (infOf F sa) 0#7) ∧
    (isInf F a = false → isInf F b = true → gives (infOf F sb') 0#7) ∧
    (isZero F a = true → isZero F b = true → sa = sb' → gives (zeroOf F sa) 0#7) ∧
    (isZero F a = true → isZero F b = true → sa ≠ sb' → gives (zeroOf F (m == .min)) 0#7) ∧
    (isFin F a = true → isZero F b = true → gives a 0#7) ∧
    (isZero F a = true → isFin F b = true → gives b' 0#7)

/-- R123, R124: `MUL` and `DIV` of finite nonzero operands round the exact product or quotient once, its sign the exclusive
or of the operands' signs. -/
def Obligations.MulAndDivRoundTheExactResult : Prop :=
  ∀ (i : Instr) (s : State) (op : ArithOp) (F : Fmt) (m : RMode) (x : ℝ),
    i.toCmd = .arith op F → RMode.ofBits s.rm = some m → OperandOk F s.opa → OperandOk F s.opb →
    let a := operandOf F s.opa
    let b := operandOf F s.opb
    isFin F a = true → isFin F b = true →
    (op = .mul ∧ x = valueOf F a * valueOf F b ∨ op = .div ∧ x = valueOf F a / valueOf F b) →
    exec i s = .next (s.complete (refRoundPack F m s.tp (signOf F a ^^ signOf F b) |x|))

/-- R123: `MUL` with an infinite or zero operand and no NaN. That the other fields of the record stay when it is
invalidated is the model's choice (log entry 9). -/
def Obligations.MulOfInfinitiesAndZeros : Prop :=
  ∀ (i : Instr) (s : State) (F : Fmt), i.toCmd = .arith .mul F → CommandOk i.toCmd s →
    let a := operandOf F s.opa
    let b := operandOf F s.opb
    let sg := signOf F a ^^ signOf F b
    isNaN F a = false → isNaN F b = false →
    let gives : Word → BitVec 7 → Prop := fun r fl => exec i s = .next (s.complete ⟨r, fl, .invalidate⟩)
    (isInf F a = true → isZero F b = true → gives (defaultNaN F) 0x10#7) ∧
    (isZero F a = true → isInf F b = true → gives (defaultNaN F) 0x10#7) ∧
    (isInf F a = true → isZero F b = false → gives (infOf F sg) 0#7) ∧
    (isZero F a = false → isInf F b = true → gives (infOf F sg) 0#7) ∧
    (isZero F a = true → isInf F b = false → gives (zeroOf F sg) 0#7) ∧
    (isInf F a = false → isZero F b = true → gives (zeroOf F sg) 0#7)

/-- R124: `DIV` with an infinite or zero operand and no NaN; a finite nonzero dividend over zero raises `Infinite`
and no other flag. That the other fields of the record stay when it is invalidated is the model's choice (log entry
9). -/
def Obligations.DivOfInfinitiesAndZeros : Prop :=
  ∀ (i : Instr) (s : State) (F : Fmt), i.toCmd = .arith .div F → CommandOk i.toCmd s →
    let a := operandOf F s.opa
    let b := operandOf F s.opb
    let sg := signOf F a ^^ signOf F b
    isNaN F a = false → isNaN F b = false →
    let gives : Word → BitVec 7 → Prop := fun r fl => exec i s = .next (s.complete ⟨r, fl, .invalidate⟩)
    (isInf F a = true → isInf F b = true → gives (defaultNaN F) 0x10#7) ∧
    (isInf F a = true → isInf F b = false → gives (infOf F sg) 0#7) ∧
    (isInf F a = false → isInf F b = true → gives (zeroOf F sg) 0#7) ∧
    (isZero F a = true → isZero F b = true → gives (defaultNaN F) 0x10#7) ∧
    (isFin F a = true → isZero F b = true → gives (infOf F sg) 0x08#7) ∧
    (isZero F a = true → isFin F b = true → gives (zeroOf F sg) 0#7)

/-- R125: `REM` of finite nonzero operands is `a - n * b` for the integer `n` nearest to `a / b`, the even one when two are
equally near. It is exact: the result's value is the remainder's, and no flag but `Tiny` is raised, and that exactly when
the remainder is nonzero and subnormal. A zero remainder has the sign of `a`. -/
def Obligations.RemIsTheExactIeeeRemainder : Prop :=
  ∀ (i : Instr) (s : State) (F : Fmt) (n : ℤ), i.toCmd = .arith .rem F → CommandOk i.toCmd s →
    let a := operandOf F s.opa
    let b := operandOf F s.opb
    let q := valueOf F a / valueOf F b
    let r := valueOf F a - n * valueOf F b
    isFin F a = true → isFin F b = true → |q - n| ≤ 1 / 2 → (|q - n| = 1 / 2 → Even n) →
    ∃ t, exec i s = .next t ∧ valueOf F t.res.val = r ∧ (isFin F t.res.val = true ∨ isZero F t.res.val = true) ∧
      (r = 0 → t.res.val = zeroOf F (signOf F a) ∧ t.flags = s.flags ∧ t.raw.valid = false) ∧
      (r ≠ 0 → t.flags = s.flags ||| (if |r| < (2 : ℝ) ^ F.emin then 0x40#7 else 0#7) ∧ t.raw.valid = true)

/-- R125: `REM` with an infinite or zero operand and no NaN. That the other fields of the record stay when it is
invalidated is the model's choice (log entry 9). -/
def Obligations.RemOfInfinitiesAndZeros : Prop :=
  ∀ (i : Instr) (s : State) (F : Fmt), i.toCmd = .arith .rem F → CommandOk i.toCmd s →
    let a := operandOf F s.opa
    let b := operandOf F s.opb
    isNaN F a = false → isNaN F b = false →
    let gives : Word → BitVec 7 → Prop := fun r fl => exec i s = .next (s.complete ⟨r, fl, .invalidate⟩)
    (isInf F a = true → gives (defaultNaN F) 0x10#7) ∧
    (isZero F b = true → gives (defaultNaN F) 0x10#7) ∧
    (isInf F a = false → isInf F b = true → gives a 0#7) ∧
    (isZero F a = true → isZero F b = false → gives a 0#7)

/-- R126: `SQRT` of a positive finite operand rounds its square root once; of a zero or of `+∞` it is the operand; of
a negative nonzero operand it is invalid. That the other fields of the record stay when it is invalidated is the
model's choice (log entry 9). -/
def Obligations.SqrtRoundsTheRoot : Prop :=
  ∀ (i : Instr) (s : State) (F : Fmt) (m : RMode), i.toCmd = .arith .sqrt F → RMode.ofBits s.rm = some m →
    OperandOk F s.opa →
    let a := operandOf F s.opa
    isNaN F a = false →
    (isFin F a = true → signOf F a = false →
      exec i s = .next (s.complete (refRoundPack F m s.tp false (Real.sqrt (valueOf F a))))) ∧
    (isZero F a = true → exec i s = .next (s.complete ⟨a, 0#7, .invalidate⟩)) ∧
    (isInf F a = true → signOf F a = false → exec i s = .next (s.complete ⟨a, 0#7, .invalidate⟩)) ∧
    (isZero F a = false → signOf F a = true → exec i s = .next (s.complete ⟨defaultNaN F, 0x10#7, .invalidate⟩))

/-- R127: `FMA` of finite nonzero `a` and `b` and finite or zero `c` rounds the exact `a * b + c` once; an exact zero
is `+0`, or `-0` in mode `MIN`. That the other fields of the record stay when it is invalidated is the model's choice
(log entry 9). -/
def Obligations.FmaRoundsOnce : Prop :=
  ∀ (i : Instr) (s : State) (F : Fmt) (m : RMode) (sg : Bool), i.toCmd = .arith .fma F →
    RMode.ofBits s.rm = some m → OperandOk F s.opa → OperandOk F s.opb → OperandOk F s.opc →
    let a := operandOf F s.opa
    let b := operandOf F s.opb
    let c := operandOf F s.opc
    let x := valueOf F a * valueOf F b + valueOf F c
    isFin F a = true → isFin F b = true → (isFin F c = true ∨ isZero F c = true) → (sg = true ↔ x < 0) →
    (x ≠ 0 → exec i s = .next (s.complete (refRoundPack F m s.tp sg |x|))) ∧
    (x = 0 → exec i s = .next (s.complete ⟨zeroOf F (m == .min), 0#7, .invalidate⟩))

/-- R127, R128: `FMA` with an infinite operand or a zero factor and no NaN. That the other fields of the record stay
when it is invalidated is the model's choice (log entry 9). -/
def Obligations.FmaOfInfinitiesAndZeros : Prop :=
  ∀ (i : Instr) (s : State) (F : Fmt) (m : RMode), i.toCmd = .arith .fma F → RMode.ofBits s.rm = some m →
    OperandOk F s.opa → OperandOk F s.opb → OperandOk F s.opc →
    let a := operandOf F s.opa
    let b := operandOf F s.opb
    let c := operandOf F s.opc
    let sp := signOf F a ^^ signOf F b
    let sc := signOf F c
    isNaN F a = false → isNaN F b = false → isNaN F c = false →
    let infProduct := isInf F a || isInf F b
    let zeroFactor := isZero F a || isZero F b
    let gives : Word → BitVec 7 → Prop := fun r fl => exec i s = .next (s.complete ⟨r, fl, .invalidate⟩)
    (infProduct = true → zeroFactor = true → gives (defaultNaN F) 0x10#7) ∧
    (infProduct = true → zeroFactor = false → isInf F c = true → sc ≠ sp → gives (defaultNaN F) 0x10#7) ∧
    (infProduct = true → zeroFactor = false → (isInf F c = true → sc = sp) → gives (infOf F sp) 0#7) ∧
    (infProduct = false → isInf F c = true → gives c 0#7) ∧
    (infProduct = false → zeroFactor = true → isFin F c = true → gives c 0#7) ∧
    (infProduct = false → zeroFactor = true → isZero F c = true → sp = sc → gives (zeroOf F sp) 0#7) ∧
    (infProduct = false → zeroFactor = true → isZero F c = true → sp ≠ sc → gives (zeroOf F (m == .min)) 0#7)

/-- R121, R123, R127: `ADD` and `MUL` are commutative and `FMA` is symmetric in its factors, for all operands, NaNs
included: the same result, flags and record. -/
def Obligations.AddMulAndFmaAreSymmetric : Prop :=
  ∀ (i : Instr) (s t : State) (op : ArithOp) (F : Fmt), i.toCmd = .arith op F →
    (op = .add ∨ op = .mul ∨ op = .fma) → exec i s = .next t →
    exec i { s with opa := s.opb, opb := s.opa } = .next { t with opa := s.opb, opb := s.opa }

/-- R129: the flag sets one arithmetic command can raise are exactly these ten: each command ORs one of them into `FLAGS`,
and each of them is raised by some arithmetic command on a clear `FLAGS`. -/
def Obligations.ArithmeticFlagSetsAreTen : Prop :=
  let sets : List (BitVec 7) :=
    [0x00#7, 0x10#7, 0x08#7, 0x01#7, 0x21#7, 0x40#7, 0x43#7, 0x63#7, 0x05#7, 0x25#7]
  (∀ (i : Instr) (s t : State) (op : ArithOp) (F : Fmt), i.toCmd = .arith op F → exec i s = .next t →
    ∃ fl ∈ sets, t.flags = s.flags ||| fl) ∧
  (∀ fl ∈ sets, ∃ (i : Instr) (s t : State) (op : ArithOp) (F : Fmt),
    i.toCmd = .arith op F ∧ s.flags = 0#7 ∧ exec i s = .next t ∧ t.flags = fl)

/-! ### Conversions -/

/-- R150: `I2F` rounds the integer once and keeps no record; integer zero is `+0` with no flag. That the other fields
of the record stay when it is invalidated is the model's choice (log entry 9). -/
def Obligations.IntToFloatRoundsTheInteger : Prop :=
  ∀ (i : Instr) (s : State) (T : IntType) (F : Fmt) (m : RMode), i.toCmd = .i2f T F →
    RMode.ofBits s.rm = some m → s.opa.written = true →
    let u := s.opa.val.toNat % 2 ^ T.n
    let v : Int := if (T = .i32 ∨ T = .i64) ∧ 2 ^ (T.n - 1) ≤ u then (u : Int) - 2 ^ T.n else u
    (v ≠ 0 → exec i s =
      .next (s.complete { refRoundPack F m s.tp (decide (v < 0)) |(v : ℝ)| with record := .invalidate })) ∧
    (v = 0 → exec i s = .next (s.complete ⟨zeroOf F false, 0#7, .invalidate⟩))

/-- R151, R152: a float to integer conversion rounds the value to an integer by `RM` (`F2I`) or toward zero
(`F2I_RMM`), then tests the range: in range it delivers the integer with `Inexact` when it differs from the value,
out of range `IntInvalid` with `Invalid` alone. `IntInvalid` is the spec's open parameter, and the statement holds
for every value of it. That the other fields of the record stay when it is invalidated is the model's choice (log
entry 9). -/
def Obligations.FloatToIntRoundsThenTestsTheRange : Prop :=
  ∀ (i : Instr) (s : State) (F : Fmt) (T : IntType) (m : RMode),
    (i.toCmd = .f2i F T ∧ RMode.ofBits s.rm = some m ∨ i.toCmd = .f2iRmm F T ∧ m = .minmag) →
    OperandOk F s.opa →
    let a := operandOf F s.opa
    let gives : Word → BitVec 7 → Prop := fun r fl => exec i s = .next (s.complete ⟨r, fl, .invalidate⟩)
    let invalid : InvalidKind → Prop := fun kind =>
      gives (BitVec.ofNat 128 ((Config.intInvalid T kind).toNat % 2 ^ T.n)) 0x10#7
    let r := refRound m (signOf F a) |valueOf F a|
    let v : Int := if signOf F a then -(r.q : Int) else r.q
    (isNaN F a = true → invalid .nan) ∧
    (isInf F a = true → signOf F a = true → invalid .negOverflow) ∧
    (isInf F a = true → signOf F a = false → invalid .posOverflow) ∧
    (isFin F a = true ∨ isZero F a = true →
      (v < T.lo → invalid .negOverflow) ∧ (T.hi < v → invalid .posOverflow) ∧
      (T.lo ≤ v → v ≤ T.hi →
        gives (BitVec.ofNat 128 (v % 2 ^ T.n).toNat) (if r.inexact then 0x01#7 else 0#7)))

/-- R153: widening is exact: the value is kept, no flag is raised and the record is invalidated; infinities and zeros keep
their sign. -/
def Obligations.WideningIsExact : Prop :=
  ∀ (i : Instr) (s : State) (F G : Fmt), i.toCmd = .f2f F G → F.p < G.p → CommandOk i.toCmd s →
    let a := operandOf F s.opa
    isNaN F a = false →
    ∃ t, exec i s = .next t ∧ t.flags = s.flags ∧ t.raw.valid = false ∧
      (isInf F a = true → t.res.val = infOf G (signOf F a)) ∧
      (isZero F a = true → t.res.val = zeroOf G (signOf F a)) ∧
      (isFin F a = true → isFin G t.res.val = true ∧ valueOf G t.res.val = valueOf F a)

/-- R154: narrowing rounds the value once and writes a record of the destination's format; infinities and zeros keep
their sign with no flag and no record. That the other fields of the record stay when it is invalidated is the model's
choice (log entry 9). -/
def Obligations.NarrowingRoundsOnce : Prop :=
  ∀ (i : Instr) (s : State) (F G : Fmt) (m : RMode), i.toCmd = .f2f F G → G.p < F.p →
    RMode.ofBits s.rm = some m → OperandOk F s.opa →
    let a := operandOf F s.opa
    (isFin F a = true → exec i s = .next (s.complete (refRoundPack G m s.tp (signOf F a) |valueOf F a|))) ∧
    (isInf F a = true → exec i s = .next (s.complete ⟨infOf G (signOf F a), 0#7, .invalidate⟩)) ∧
    (isZero F a = true → exec i s = .next (s.complete ⟨zeroOf G (signOf F a), 0#7, .invalidate⟩))

/-- R155: a NaN converted to another format keeps its sign and its payload left-aligned, and is quiet; `Invalid` is raised
exactly for a signaling one, and the record is invalidated. -/
def Obligations.NanConversionKeepsSignAndPayload : Prop :=
  ∀ (i : Instr) (s : State) (F G : Fmt), i.toCmd = .f2f F G → CommandOk i.toCmd s →
    let a := operandOf F s.opa
    isNaN F a = true →
    ∃ t, exec i s = .next t ∧ classOf G t.res.val = .qnan ∧ signOf G t.res.val = signOf F a ∧
      t.res.val.toNat < 2 ^ G.k ∧ fracOf G t.res.val = (fracOf F a * 2 ^ G.t / 2 ^ F.t) ||| 2 ^ (G.t - 1) ∧
      t.flags = s.flags ||| (if isSNaN F a then 0x10#7 else 0#7) ∧ t.raw.valid = false

/-- R157: widening and then narrowing gives every non-NaN pattern back bit for bit in every mode, raising no flag but
`Tiny` at the narrowing of a subnormal; a NaN comes back quiet, with `Invalid` once, at the widening, if it is signaling. -/
def Obligations.WideningThenNarrowingIsTheIdentity : Prop :=
  ∀ (i j : Instr) (s t : State) (F G : Fmt) (rm : BitVec 3), i.toCmd = .f2f F G → j.toCmd = .f2f G F →
    F.p < G.p → exec i s = .next t → rm.toNat < 6 →
    let a := operandOf F s.opa
    ∃ u, exec j { t with opa := t.res, rm := rm } = .next u ∧
      (isNaN F a = false → u.res.val = a ∧ t.flags = s.flags ∧
        u.flags = s.flags ||| (if classOf F a = .subnormal then 0x40#7 else 0#7)) ∧
      (isNaN F a = true → u.res.val = quiet F a ∧
        t.flags = s.flags ||| (if isSNaN F a then 0x10#7 else 0#7) ∧ u.flags = t.flags)

/-- R158: an integer of no more bits than the format's precision converts to a float exactly, and either conversion back
returns it, with no flag in any mode. -/
def Obligations.IntegerRoundTripIsTheIdentity : Prop :=
  ∀ (i j : Instr) (s t : State) (T : IntType) (F : Fmt) (rm : BitVec 3), i.toCmd = .i2f T F →
    (j.toCmd = .f2i F T ∨ j.toCmd = .f2iRmm F T) → bitlen (intValue T s.opa.val).natAbs ≤ F.p →
    exec i s = .next t → rm.toNat < 6 →
    t.flags = s.flags ∧
    ∃ u, exec j { t with opa := t.res, rm := rm } = .next u ∧ u.res.val.toNat = s.opa.val.toNat % 2 ^ T.n ∧
      u.flags = s.flags

/-! ### Comparisons -/

/-- R170 to R176: of two operands that are no NaNs a compare delivers 1 when their extended real values are in the
relation and 0 otherwise, raises no flag and invalidates the record. That the other fields of the record stay when it
is invalidated is the model's choice (log entry 9). -/
def Obligations.ComparesOrderTheExtendedValues : Prop :=
  ∀ (i : Instr) (s : State) (op : CmpOp) (F : Fmt) (holds : Bool), i.toCmd = .cmp op F →
    OperandOk F s.opa → OperandOk F s.opb →
    let a := operandOf F s.opa
    let b := operandOf F s.opb
    isNaN F a = false → isNaN F b = false →
    (holds = true ↔
      match op with
      | .eq => extValueOf F a = extValueOf F b
      | .eqs => extValueOf F a = extValueOf F b
      | .leq => extValueOf F a ≤ extValueOf F b
      | .les => extValueOf F a ≤ extValueOf F b
      | .ltq => extValueOf F a < extValueOf F b
      | .lts => extValueOf F a < extValueOf F b) →
    exec i s = .next (s.complete ⟨if holds then 1#128 else 0#128, 0#7, .invalidate⟩)

/-- R178: with a NaN operand every compare delivers 0; `Invalid` is raised for a signaling NaN by all six and for a
quiet one by `LES` and `LTS` alone. That the other fields of the record stay when it is invalidated is the model's
choice (log entry 9). -/
def Obligations.ComparesWithNansAreFalse : Prop :=
  ∀ (i : Instr) (s : State) (op : CmpOp) (F : Fmt), i.toCmd = .cmp op F → OperandOk F s.opa → OperandOk F s.opb →
    let a := operandOf F s.opa
    let b := operandOf F s.opb
    (isNaN F a = true ∨ isNaN F b = true) →
    exec i s = .next (s.complete
      ⟨0#128, if isSNaN F a = true ∨ isSNaN F b = true ∨ op = .les ∨ op = .lts then 0x10#7 else 0#7, .invalidate⟩)

/-- R177: `ISSNAN` delivers 1 exactly for a pattern of all-ones exponent, clear quiet bit and nonzero fraction, 0 otherwise,
raises no flag whatever the operand, and invalidates the record; a non-canonical `X80` operand is refused. The name of the
refusal is the model's choice (log entry 12). -/
def Obligations.IssnanTestsTheQuietBit : Prop :=
  ∀ (i : Instr) (s : State) (F : Fmt), i.toCmd = .issnan F → s.opa.written = true →
    let x := s.opa.val.toNat
    (classOf F (operandOf F s.opa) ≠ .nonCanonical →
      ∃ t, exec i s = .next t ∧ t.flags = s.flags ∧ t.raw.valid = false ∧
        t.res.val = if x / 2 ^ F.sigW % 2 ^ F.w = 2 ^ F.w - 1 ∧ x / 2 ^ (F.t - 1) % 2 = 0 ∧ x % 2 ^ F.t ≠ 0
          then 1#128 else 0#128) ∧
    (classOf F (operandOf F s.opa) = .nonCanonical → exec i s = .refused .nonCanonicalOperand)

/-! ### The scaled result -/

/-- R186: `SCALED` delivers exactly the record's value times `2^scale`, a normal number; it raises no flag, changes neither
`FLAGS` nor the record, and changes nothing but `RES`. The record is assumed well formed, as the invariant says. -/
def Obligations.ScaledMultipliesTheRecord : Prop :=
  ∀ (i : Instr) (s : State) (F : Fmt), i.toCmd = .scaled F → s.opa.written = true → RecordOk F s → s.raw.Wf →
    let scale : Int := (s.opa.val.extractLsb' 0 32).toInt
    ∃ t, exec i s = .next t ∧ t = { s with res := t.res } ∧ classOf F t.res.val = .normal ∧
      valueOf F t.res.val = recordValue s.raw * 2 ^ scale

/-- R187: `SCALED` is refused without a record, with a record of another format, and when the scaled exponent is outside
`[emin, emax]`; `SCALED.X80` is no command. The names of the refusals and their order (no record before format
before range) are the model's choice (log entry 12), and so is the name of the reason a word is rejected with (log entry 18). -/
def Obligations.ScaledRefusals : Prop :=
  (∀ (i : Instr) (s : State) (F : Fmt), i.toCmd = .scaled F → s.opa.written = true →
    let E' := s.raw.exp.toInt + (s.opa.val.extractLsb' 0 32).toInt
    (s.raw.valid = false → exec i s = .refused .noRecord) ∧
    (s.raw.valid = true → s.raw.fmt ≠ F → exec i s = .refused .recordFormatMismatch) ∧
    (s.raw.valid = true → s.raw.fmt = F → E' < F.emin ∨ F.emax < E' →
      exec i s = .refused .scaledExponentOutOfRange)) ∧
  decode 0x0230#16 = .error .noScaledX80

/-- R188: `SCALED`'s result is a function of the record and the scale only; and after a command whose rounding pass ran and
neither overflowed nor was tiny, `SCALED` with scale 0 returns the pattern the command delivered. -/
def Obligations.ScaledPurity : Prop :=
  (∀ (i : Instr) (s s' t t' : State) (F : Fmt), i.toCmd = .scaled F → exec i s = .next t → exec i s' = .next t' →
    s.raw = s'.raw → s.opa.val.toNat % 2 ^ 32 = s'.opa.val.toNat % 2 ^ 32 → t.res = t'.res) ∧
  ∀ (i j : Instr) (s t : State) (F : Fmt) (x : Word), i.toCmd.writesRecord = true → i.toCmd.resultFmt = some F →
    j.toCmd = .scaled F → s.flags = 0#7 → exec i s = .next t → t.raw.valid = true → t.flags &&& 0x44#7 = 0#7 →
    x.toNat % 2 ^ 32 = 0 →
    ∃ u, exec j { t with opa := ⟨x, true⟩ } = .next u ∧ u.res = t.res
end

