-- ==== Sys2Proof/Laws/State.lean ====
section
/-! SUPPORT. One lemma per field per state update, each true by `rfl`. -/

namespace Sys2Proof.Machine

@[simp] theorem RecordUpdate.apply_write (r r' : Raw) : (RecordUpdate.write r').apply r = r' := rfl
@[simp] theorem RecordUpdate.apply_keep (r : Raw) : RecordUpdate.keep.apply r = r := rfl
@[simp] theorem RecordUpdate.apply_invalidate (r : Raw) :
    RecordUpdate.invalidate.apply r = { r with valid := false } := rfl

@[simp] theorem State.complete_rm (s : State) (c : Completion) : (s.complete c).rm = s.rm := rfl
@[simp] theorem State.complete_tp (s : State) (c : Completion) : (s.complete c).tp = s.tp := rfl
@[simp] theorem State.complete_flags (s : State) (c : Completion) : (s.complete c).flags = s.flags ||| c.fl := rfl
@[simp] theorem State.complete_opa (s : State) (c : Completion) : (s.complete c).opa = s.opa := rfl
@[simp] theorem State.complete_opb (s : State) (c : Completion) : (s.complete c).opb = s.opb := rfl
@[simp] theorem State.complete_opc (s : State) (c : Completion) : (s.complete c).opc = s.opc := rfl
@[simp] theorem State.complete_res (s : State) (c : Completion) : (s.complete c).res = ⟨c.res, true⟩ := rfl
@[simp] theorem State.complete_raw (s : State) (c : Completion) : (s.complete c).raw = c.record.apply s.raw := rfl
@[simp] theorem State.complete_host (s : State) (c : Completion) : (s.complete c).host = s.host := rfl
@[simp] theorem State.complete_reads (s : State) (c : Completion) : (s.complete c).reads = s.reads := rfl
@[simp] theorem State.complete_draws (s : State) (c : Completion) : (s.complete c).draws = s.draws := rfl

@[simp] theorem resetEvent_rm (s : State) : (resetEvent s).rm = 0#3 := rfl
@[simp] theorem resetEvent_tp (s : State) : (resetEvent s).tp = Config.tininessReset := rfl
@[simp] theorem resetEvent_flags (s : State) : (resetEvent s).flags = 0#7 := rfl
@[simp] theorem resetEvent_opa (s : State) : (resetEvent s).opa = State.reset.opa := rfl
@[simp] theorem resetEvent_opb (s : State) : (resetEvent s).opb = State.reset.opb := rfl
@[simp] theorem resetEvent_opc (s : State) : (resetEvent s).opc = State.reset.opc := rfl
@[simp] theorem resetEvent_res (s : State) : (resetEvent s).res = State.reset.res := rfl
@[simp] theorem resetEvent_raw (s : State) : (resetEvent s).raw = State.reset.raw := rfl
@[simp] theorem resetEvent_host (s : State) : (resetEvent s).host = s.host := rfl
@[simp] theorem resetEvent_reads (s : State) : (resetEvent s).reads = s.reads := rfl
@[simp] theorem resetEvent_draws (s : State) : (resetEvent s).draws = s.draws := rfl

@[simp] theorem operandsWritten_rm (s : State) : (operandsWritten s).rm = s.rm := rfl
@[simp] theorem operandsWritten_tp (s : State) : (operandsWritten s).tp = s.tp := rfl
@[simp] theorem operandsWritten_flags (s : State) : (operandsWritten s).flags = s.flags := rfl
@[simp] theorem operandsWritten_opa (s : State) : (operandsWritten s).opa = ⟨s.opa.val, true⟩ := rfl
@[simp] theorem operandsWritten_opb (s : State) : (operandsWritten s).opb = ⟨s.opb.val, true⟩ := rfl
@[simp] theorem operandsWritten_opc (s : State) : (operandsWritten s).opc = ⟨s.opc.val, true⟩ := rfl
@[simp] theorem operandsWritten_res (s : State) : (operandsWritten s).res = s.res := rfl
@[simp] theorem operandsWritten_raw (s : State) : (operandsWritten s).raw = s.raw := rfl
@[simp] theorem operandsWritten_host (s : State) : (operandsWritten s).host = s.host := rfl
@[simp] theorem operandsWritten_reads (s : State) : (operandsWritten s).reads = s.reads := rfl
@[simp] theorem operandsWritten_draws (s : State) : (operandsWritten s).draws = s.draws := rfl

end Sys2Proof.Machine
end

