-- ==== Sys2Proof/Laws/Ops.lean ====
section
/-! SUPPORT. What the shared operations can do, said once: when each goes on and with what, so that no proof about a
command unfolds them. -/

namespace Sys2Proof.Machine

variable {s t : State} {F : Fmt} {r : MarkedReg}

theorem withMode_eq_next {k : RMode → Host.Outcome State Fault Refusal} :
    withMode s k = .next t ↔ ∃ m, RMode.ofBits s.rm = some m ∧ k m = .next t := by
  unfold withMode
  cases RMode.ofBits s.rm <;> simp

theorem withOperand_eq_next {k : Word → Host.Outcome State Fault Refusal} :
    withOperand F r k = .next t ↔
      r.written = true ∧ classOf F (lowBits F.k r.val) ≠ .nonCanonical ∧ k (lowBits F.k r.val) = .next t := by
  unfold withOperand
  split <;> [split; skip] <;> simp_all

theorem withWritten_eq_next {k : Word → Host.Outcome State Fault Refusal} :
    withWritten r k = .next t ↔ r.written = true ∧ k r.val = .next t := by
  unfold withWritten
  split <;> simp_all

theorem withMode_ready {m : RMode} {k : RMode → Host.Outcome State Fault Refusal}
    (h : RMode.ofBits s.rm = some m) : withMode s k = k m := by
  simp [withMode, h]

theorem withMode_reserved {k : RMode → Host.Outcome State Fault Refusal} (h : RMode.ofBits s.rm = none) :
    withMode s k = .refused .reservedRoundingMode := by
  simp [withMode, h]

theorem withOperand_ready {k : Word → Host.Outcome State Fault Refusal} (hw : r.written = true)
    (hc : classOf F (lowBits F.k r.val) ≠ .nonCanonical) : withOperand F r k = k (lowBits F.k r.val) := by
  simp [withOperand, hw, hc]

theorem withOperand_unwritten {k : Word → Host.Outcome State Fault Refusal} (hw : r.written = false) :
    withOperand F r k = .refused .unwrittenOperand := by
  simp [withOperand, hw]

theorem withOperand_nonCanonical {k : Word → Host.Outcome State Fault Refusal} (hw : r.written = true)
    (hc : classOf F (lowBits F.k r.val) = .nonCanonical) :
    withOperand F r k = .refused .nonCanonicalOperand := by
  simp [withOperand, hw, hc]

theorem withWritten_ready {k : Word → Host.Outcome State Fault Refusal} (hw : r.written = true) :
    withWritten r k = k r.val := by
  simp [withWritten, hw]

/-- `RM` names a mode exactly when it is below 6 (R23). -/
theorem ofBits_isSome_iff (rm : BitVec 3) : (RMode.ofBits rm).isSome = true ↔ rm.toNat < 6 := by
  revert rm; decide

theorem runUnary_eq_next {f : Word → Completion} :
    runUnary F f s = .next t ↔
      s.opa.written = true ∧ classOf F (lowBits F.k s.opa.val) ≠ .nonCanonical ∧
        s.complete (f (lowBits F.k s.opa.val)) = t := by
  simp [runUnary, withOperand_eq_next]

theorem runBinary_eq_next {f : Word → Word → Completion} :
    runBinary F f s = .next t ↔
      (s.opa.written = true ∧ classOf F (lowBits F.k s.opa.val) ≠ .nonCanonical) ∧
      (s.opb.written = true ∧ classOf F (lowBits F.k s.opb.val) ≠ .nonCanonical) ∧
        s.complete (f (lowBits F.k s.opa.val) (lowBits F.k s.opb.val)) = t := by
  simp [runBinary, withOperand_eq_next, and_assoc]

theorem runUnaryRounding_eq_next {f : RMode → BitVec 1 → Word → Completion} :
    runUnaryRounding F f s = .next t ↔
      ∃ m, RMode.ofBits s.rm = some m ∧ runUnary F (f m s.tp) s = .next t := by
  simp [runUnaryRounding, withMode_eq_next]

theorem runBinaryRounding_eq_next {f : RMode → BitVec 1 → Word → Word → Completion} :
    runBinaryRounding F f s = .next t ↔
      ∃ m, RMode.ofBits s.rm = some m ∧ runBinary F (f m s.tp) s = .next t := by
  simp [runBinaryRounding, withMode_eq_next]

theorem runTernaryRounding_eq_next {f : RMode → BitVec 1 → Word → Word → Word → Completion} :
    runTernaryRounding F f s = .next t ↔
      ∃ m, RMode.ofBits s.rm = some m ∧
        (s.opa.written = true ∧ classOf F (lowBits F.k s.opa.val) ≠ .nonCanonical) ∧
        (s.opb.written = true ∧ classOf F (lowBits F.k s.opb.val) ≠ .nonCanonical) ∧
        (s.opc.written = true ∧ classOf F (lowBits F.k s.opc.val) ≠ .nonCanonical) ∧
        s.complete (f m s.tp (lowBits F.k s.opa.val) (lowBits F.k s.opb.val) (lowBits F.k s.opc.val)) = t := by
  simp [runTernaryRounding, withMode_eq_next, withOperand_eq_next, and_assoc]

theorem runIntRounding_eq_next {T : IntType} {f : RMode → BitVec 1 → Int → Completion} :
    runIntRounding T f s = .next t ↔
      ∃ m, RMode.ofBits s.rm = some m ∧ s.opa.written = true ∧ s.complete (f m s.tp (intValue T s.opa.val)) = t := by
  simp [runIntRounding, withMode_eq_next, withWritten_eq_next]

theorem runUnary_next {f : Word → Completion} (h : runUnary F f s = .next t) : ∃ d, t = s.complete d :=
  ⟨_, (runUnary_eq_next.mp h).2.2.symm⟩

theorem runBinary_next {f : Word → Word → Completion} (h : runBinary F f s = .next t) : ∃ d, t = s.complete d :=
  ⟨_, (runBinary_eq_next.mp h).2.2.symm⟩

theorem runUnaryRounding_next {f : RMode → BitVec 1 → Word → Completion} (h : runUnaryRounding F f s = .next t) :
    ∃ d, t = s.complete d :=
  let ⟨_, _, h⟩ := runUnaryRounding_eq_next.mp h
  runUnary_next h

theorem runBinaryRounding_next {f : RMode → BitVec 1 → Word → Word → Completion}
    (h : runBinaryRounding F f s = .next t) : ∃ d, t = s.complete d :=
  let ⟨_, _, h⟩ := runBinaryRounding_eq_next.mp h
  runBinary_next h

theorem runTernaryRounding_next {f : RMode → BitVec 1 → Word → Word → Word → Completion}
    (h : runTernaryRounding F f s = .next t) : ∃ d, t = s.complete d :=
  let ⟨_, _, h⟩ := runTernaryRounding_eq_next.mp h
  ⟨_, h.2.2.2.symm⟩

theorem runIntRounding_next {T : IntType} {f : RMode → BitVec 1 → Int → Completion}
    (h : runIntRounding T f s = .next t) : ∃ d, t = s.complete d :=
  let ⟨_, _, h⟩ := runIntRounding_eq_next.mp h
  ⟨_, h.2.symm⟩

end Sys2Proof.Machine
end

