-- ==== Sys2Proof/Laws/Exec.lean ====
section
/-! SUPPORT. `exec` by the command an instruction is: one equation for all 119 arms, and what every command can do. -/

namespace Sys2Proof.Machine

/-- The meanings by command, as the arms of `exec` apply them. -/
def runCmd : Cmd → State → Host.Outcome State Fault Refusal
  | .arith .add F => runBinaryRounding F (addResult F)
  | .arith .sub F => runBinaryRounding F (subResult F)
  | .arith .mul F => runBinaryRounding F (mulResult F)
  | .arith .div F => runBinaryRounding F (divResult F)
  | .arith .rem F => runBinaryRounding F (remResult F)
  | .arith .sqrt F => runUnaryRounding F (sqrtResult F)
  | .arith .fma F => runTernaryRounding F (fmaResult F)
  | .i2f T F => runIntRounding T (i2fResult F)
  | .f2i F T => runUnaryRounding F (f2iResult F T)
  | .f2iRmm F T => runUnary F (f2iRmmResult F T)
  | .f2f F G => if F.p < G.p then runUnaryRounding F (widenResult F G) else runUnaryRounding F (narrowResult F G)
  | .cmp .eq F => runBinary F (eqResult F)
  | .cmp .eqs F => runBinary F (eqsResult F)
  | .cmp .leq F => runBinary F (leqResult F)
  | .cmp .les F => runBinary F (lesResult F)
  | .cmp .ltq F => runBinary F (ltqResult F)
  | .cmp .lts F => runBinary F (ltsResult F)
  | .issnan F => runUnary F (issnanResult F)
  | .scaled F => runScaled F

/-- Every arm of `exec` is the meaning of its row's command. -/
theorem exec_eq_runCmd (i : Instr) (s : State) : exec i s = runCmd i.toCmd s := by
  cases i <;> rfl

theorem exec_of_toCmd {i : Instr} {c : Cmd} (h : i.toCmd = c) (s : State) : exec i s = runCmd c s := by
  rw [exec_eq_runCmd, h]

theorem runScaled_eq_next {F : Fmt} {s t : State} :
    runScaled F s = .next t ↔
      s.opa.written = true ∧ s.raw.valid = true ∧ s.raw.fmt = F ∧
        (F.emin ≤ scaledExp s.raw (scaleOf s.opa.val) ∧ scaledExp s.raw (scaleOf s.opa.val) ≤ F.emax) ∧
        s.complete ⟨scaledPattern F s.raw (scaleOf s.opa.val), 0#7, .keep⟩ = t := by
  simp only [runScaled, withWritten_eq_next]
  split <;> [split <;> [split; skip]; skip] <;> simp_all

/-- The one way a command goes on: it completes, with some result, flags and effect on the record. -/
theorem runCmd_next {c : Cmd} {s t : State} (h : runCmd c s = .next t) : ∃ d, t = s.complete d := by
  unfold runCmd at h
  split at h
  case h_11 => split at h <;> exact runUnaryRounding_next h
  case h_19 => exact ⟨_, (runScaled_eq_next.mp h).2.2.2.2.symm⟩
  all_goals
    first
    | exact runBinaryRounding_next h
    | exact runUnaryRounding_next h
    | exact runTernaryRounding_next h
    | exact runIntRounding_next h
    | exact runUnary_next h
    | exact runBinary_next h

theorem exec_next {i : Instr} {s t : State} (h : exec i s = .next t) : ∃ d, t = s.complete d :=
  runCmd_next (exec_eq_runCmd i s ▸ h)

end Sys2Proof.Machine
end

