-- ==== Sys2Proof/Laws/PerInstr.lean ====
section
/-! SUPPORT. A family of statements made per instruction: its command word meets the conditions of R66. -/

namespace Sys2Proof.Laws.WordWellFormed

/-- The instruction is well formed, and so is its command word (R66). -/
def Statement (i : Instr) : Prop :=
  i.wellFormed = true ∧ (CmdFields.ofWord (encode i)).wellFormed = true

theorem addF32 : Statement .addF32 := ⟨rfl, rfl⟩
theorem addF64 : Statement .addF64 := ⟨rfl, rfl⟩
theorem addX80 : Statement .addX80 := ⟨rfl, rfl⟩
theorem addF128 : Statement .addF128 := ⟨rfl, rfl⟩
theorem subF32 : Statement .subF32 := ⟨rfl, rfl⟩
theorem subF64 : Statement .subF64 := ⟨rfl, rfl⟩
theorem subX80 : Statement .subX80 := ⟨rfl, rfl⟩
theorem subF128 : Statement .subF128 := ⟨rfl, rfl⟩
theorem mulF32 : Statement .mulF32 := ⟨rfl, rfl⟩
theorem mulF64 : Statement .mulF64 := ⟨rfl, rfl⟩
theorem mulX80 : Statement .mulX80 := ⟨rfl, rfl⟩
theorem mulF128 : Statement .mulF128 := ⟨rfl, rfl⟩
theorem divF32 : Statement .divF32 := ⟨rfl, rfl⟩
theorem divF64 : Statement .divF64 := ⟨rfl, rfl⟩
theorem divX80 : Statement .divX80 := ⟨rfl, rfl⟩
theorem divF128 : Statement .divF128 := ⟨rfl, rfl⟩
theorem remF32 : Statement .remF32 := ⟨rfl, rfl⟩
theorem remF64 : Statement .remF64 := ⟨rfl, rfl⟩
theorem remX80 : Statement .remX80 := ⟨rfl, rfl⟩
theorem remF128 : Statement .remF128 := ⟨rfl, rfl⟩
theorem sqrtF32 : Statement .sqrtF32 := ⟨rfl, rfl⟩
theorem sqrtF64 : Statement .sqrtF64 := ⟨rfl, rfl⟩
theorem sqrtX80 : Statement .sqrtX80 := ⟨rfl, rfl⟩
theorem sqrtF128 : Statement .sqrtF128 := ⟨rfl, rfl⟩
theorem fmaF32 : Statement .fmaF32 := ⟨rfl, rfl⟩
theorem fmaF64 : Statement .fmaF64 := ⟨rfl, rfl⟩
theorem fmaX80 : Statement .fmaX80 := ⟨rfl, rfl⟩
theorem fmaF128 : Statement .fmaF128 := ⟨rfl, rfl⟩
theorem i2fI32F32 : Statement .i2fI32F32 := ⟨rfl, rfl⟩
theorem i2fU32F32 : Statement .i2fU32F32 := ⟨rfl, rfl⟩
theorem i2fI64F32 : Statement .i2fI64F32 := ⟨rfl, rfl⟩
theorem i2fU64F32 : Statement .i2fU64F32 := ⟨rfl, rfl⟩
theorem i2fI32F64 : Statement .i2fI32F64 := ⟨rfl, rfl⟩
theorem i2fU32F64 : Statement .i2fU32F64 := ⟨rfl, rfl⟩
theorem i2fI64F64 : Statement .i2fI64F64 := ⟨rfl, rfl⟩
theorem i2fU64F64 : Statement .i2fU64F64 := ⟨rfl, rfl⟩
theorem i2fI32X80 : Statement .i2fI32X80 := ⟨rfl, rfl⟩
theorem i2fU32X80 : Statement .i2fU32X80 := ⟨rfl, rfl⟩
theorem i2fI64X80 : Statement .i2fI64X80 := ⟨rfl, rfl⟩
theorem i2fU64X80 : Statement .i2fU64X80 := ⟨rfl, rfl⟩
theorem i2fI32F128 : Statement .i2fI32F128 := ⟨rfl, rfl⟩
theorem i2fU32F128 : Statement .i2fU32F128 := ⟨rfl, rfl⟩
theorem i2fI64F128 : Statement .i2fI64F128 := ⟨rfl, rfl⟩
theorem i2fU64F128 : Statement .i2fU64F128 := ⟨rfl, rfl⟩
theorem f2iF32I32 : Statement .f2iF32I32 := ⟨rfl, rfl⟩
theorem f2iF32U32 : Statement .f2iF32U32 := ⟨rfl, rfl⟩
theorem f2iF32I64 : Statement .f2iF32I64 := ⟨rfl, rfl⟩
theorem f2iF32U64 : Statement .f2iF32U64 := ⟨rfl, rfl⟩
theorem f2iF64I32 : Statement .f2iF64I32 := ⟨rfl, rfl⟩
theorem f2iF64U32 : Statement .f2iF64U32 := ⟨rfl, rfl⟩
theorem f2iF64I64 : Statement .f2iF64I64 := ⟨rfl, rfl⟩
theorem f2iF64U64 : Statement .f2iF64U64 := ⟨rfl, rfl⟩
theorem f2iX80I32 : Statement .f2iX80I32 := ⟨rfl, rfl⟩
theorem f2iX80U32 : Statement .f2iX80U32 := ⟨rfl, rfl⟩
theorem f2iX80I64 : Statement .f2iX80I64 := ⟨rfl, rfl⟩
theorem f2iX80U64 : Statement .f2iX80U64 := ⟨rfl, rfl⟩
theorem f2iF128I32 : Statement .f2iF128I32 := ⟨rfl, rfl⟩
theorem f2iF128U32 : Statement .f2iF128U32 := ⟨rfl, rfl⟩
theorem f2iF128I64 : Statement .f2iF128I64 := ⟨rfl, rfl⟩
theorem f2iF128U64 : Statement .f2iF128U64 := ⟨rfl, rfl⟩
theorem f2iRmmF32I32 : Statement .f2iRmmF32I32 := ⟨rfl, rfl⟩
theorem f2iRmmF32U32 : Statement .f2iRmmF32U32 := ⟨rfl, rfl⟩
theorem f2iRmmF32I64 : Statement .f2iRmmF32I64 := ⟨rfl, rfl⟩
theorem f2iRmmF32U64 : Statement .f2iRmmF32U64 := ⟨rfl, rfl⟩
theorem f2iRmmF64I32 : Statement .f2iRmmF64I32 := ⟨rfl, rfl⟩
theorem f2iRmmF64U32 : Statement .f2iRmmF64U32 := ⟨rfl, rfl⟩
theorem f2iRmmF64I64 : Statement .f2iRmmF64I64 := ⟨rfl, rfl⟩
theorem f2iRmmF64U64 : Statement .f2iRmmF64U64 := ⟨rfl, rfl⟩
theorem f2iRmmX80I32 : Statement .f2iRmmX80I32 := ⟨rfl, rfl⟩
theorem f2iRmmX80U32 : Statement .f2iRmmX80U32 := ⟨rfl, rfl⟩
theorem f2iRmmX80I64 : Statement .f2iRmmX80I64 := ⟨rfl, rfl⟩
theorem f2iRmmX80U64 : Statement .f2iRmmX80U64 := ⟨rfl, rfl⟩
theorem f2iRmmF128I32 : Statement .f2iRmmF128I32 := ⟨rfl, rfl⟩
theorem f2iRmmF128U32 : Statement .f2iRmmF128U32 := ⟨rfl, rfl⟩
theorem f2iRmmF128I64 : Statement .f2iRmmF128I64 := ⟨rfl, rfl⟩
theorem f2iRmmF128U64 : Statement .f2iRmmF128U64 := ⟨rfl, rfl⟩
theorem f2fF32F64 : Statement .f2fF32F64 := ⟨rfl, rfl⟩
theorem f2fF32X80 : Statement .f2fF32X80 := ⟨rfl, rfl⟩
theorem f2fF32F128 : Statement .f2fF32F128 := ⟨rfl, rfl⟩
theorem f2fF64F32 : Statement .f2fF64F32 := ⟨rfl, rfl⟩
theorem f2fF64X80 : Statement .f2fF64X80 := ⟨rfl, rfl⟩
theorem f2fF64F128 : Statement .f2fF64F128 := ⟨rfl, rfl⟩
theorem f2fX80F32 : Statement .f2fX80F32 := ⟨rfl, rfl⟩
theorem f2fX80F64 : Statement .f2fX80F64 := ⟨rfl, rfl⟩
theorem f2fX80F128 : Statement .f2fX80F128 := ⟨rfl, rfl⟩
theorem f2fF128F32 : Statement .f2fF128F32 := ⟨rfl, rfl⟩
theorem f2fF128F64 : Statement .f2fF128F64 := ⟨rfl, rfl⟩
theorem f2fF128X80 : Statement .f2fF128X80 := ⟨rfl, rfl⟩
theorem eqF32 : Statement .eqF32 := ⟨rfl, rfl⟩
theorem eqF64 : Statement .eqF64 := ⟨rfl, rfl⟩
theorem eqX80 : Statement .eqX80 := ⟨rfl, rfl⟩
theorem eqF128 : Statement .eqF128 := ⟨rfl, rfl⟩
theorem eqsF32 : Statement .eqsF32 := ⟨rfl, rfl⟩
theorem eqsF64 : Statement .eqsF64 := ⟨rfl, rfl⟩
theorem eqsX80 : Statement .eqsX80 := ⟨rfl, rfl⟩
theorem eqsF128 : Statement .eqsF128 := ⟨rfl, rfl⟩
theorem leqF32 : Statement .leqF32 := ⟨rfl, rfl⟩
theorem leqF64 : Statement .leqF64 := ⟨rfl, rfl⟩
theorem leqX80 : Statement .leqX80 := ⟨rfl, rfl⟩
theorem leqF128 : Statement .leqF128 := ⟨rfl, rfl⟩
theorem lesF32 : Statement .lesF32 := ⟨rfl, rfl⟩
theorem lesF64 : Statement .lesF64 := ⟨rfl, rfl⟩
theorem lesX80 : Statement .lesX80 := ⟨rfl, rfl⟩
theorem lesF128 : Statement .lesF128 := ⟨rfl, rfl⟩
theorem ltqF32 : Statement .ltqF32 := ⟨rfl, rfl⟩
theorem ltqF64 : Statement .ltqF64 := ⟨rfl, rfl⟩
theorem ltqX80 : Statement .ltqX80 := ⟨rfl, rfl⟩
theorem ltqF128 : Statement .ltqF128 := ⟨rfl, rfl⟩
theorem ltsF32 : Statement .ltsF32 := ⟨rfl, rfl⟩
theorem ltsF64 : Statement .ltsF64 := ⟨rfl, rfl⟩
theorem ltsX80 : Statement .ltsX80 := ⟨rfl, rfl⟩
theorem ltsF128 : Statement .ltsF128 := ⟨rfl, rfl⟩
theorem issnanF32 : Statement .issnanF32 := ⟨rfl, rfl⟩
theorem issnanF64 : Statement .issnanF64 := ⟨rfl, rfl⟩
theorem issnanX80 : Statement .issnanX80 := ⟨rfl, rfl⟩
theorem issnanF128 : Statement .issnanF128 := ⟨rfl, rfl⟩
theorem scaledF32 : Statement .scaledF32 := ⟨rfl, rfl⟩
theorem scaledF64 : Statement .scaledF64 := ⟨rfl, rfl⟩
theorem scaledF128 : Statement .scaledF128 := ⟨rfl, rfl⟩

end Sys2Proof.Laws.WordWellFormed
end

