-- ==== Sys2Proof/Laws/Round.lean ====
section
/-! SUPPORT. The arithmetic helpers of the rounding engine meet their definitions in R8 and R101. -/

namespace Sys2Proof.Machine

/-- `bitlen(n)` is the unique `L` with `2^(L-1) ≤ n < 2^L` (R8). -/
theorem lt_two_pow_bitlen (n : Nat) : n < 2 ^ bitlen n := by
  unfold bitlen
  split
  · simp_all
  · exact Nat.lt_log2_self

theorem two_pow_bitlen_le {n : Nat} (h : 0 < n) : 2 ^ (bitlen n - 1) ≤ n := by
  have h0 : n ≠ 0 := by omega
  simpa [bitlen, h0] using Nat.log2_self_le h0

theorem bitlen_pos {n : Nat} (h : 0 < n) : 0 < bitlen n := by
  have h0 : n ≠ 0 := by omega
  simp [bitlen, h0]

theorem isqrtFrom_spec (n : Nat) : ∀ i r, r * r ≤ n → n < (r + 2 ^ i) * (r + 2 ^ i) →
    isqrtFrom n i r * isqrtFrom n i r ≤ n ∧ n < (isqrtFrom n i r + 1) * (isqrtFrom n i r + 1) := by
  intro i
  induction i with
  | zero => intro r h1 h2; exact ⟨h1, by simpa [isqrtFrom] using h2⟩
  | succ i ih =>
    intro r h1 h2
    unfold isqrtFrom
    split
    · rename_i h
      refine ih _ h ?_
      have e : r + 2 ^ i + 2 ^ i = r + 2 ^ (i + 1) := by rw [pow_succ]; ring
      rwa [e]
    · rename_i h; exact ih _ h1 (Nat.lt_of_not_le h)

/-- `isqrt(n)` is the greatest `r` with `r * r ≤ n` (R8). -/
theorem isqrt_spec (n : Nat) : isqrt n * isqrt n ≤ n ∧ n < (isqrt n + 1) * (isqrt n + 1) := by
  refine isqrtFrom_spec n _ 0 (by simp) ?_
  have h := lt_two_pow_bitlen n
  calc n < 2 ^ bitlen n := h
    _ ≤ 2 ^ ((bitlen n / 2 + 1) + (bitlen n / 2 + 1)) := Nat.pow_le_pow_right (by decide) (by omega)
    _ = (0 + 2 ^ (bitlen n / 2 + 1)) * (0 + 2 ^ (bitlen n / 2 + 1)) := by rw [pow_add]; simp

theorem isqrt_eq_sqrt (n : Nat) : isqrt n = Nat.sqrt n := by
  obtain ⟨h1, h2⟩ := isqrt_spec n
  exact (Nat.eq_sqrt.mpr ⟨h1, h2⟩)

/-- `RoundInt` adds one or nothing, and says which (R101). -/
theorem roundInt_q (m : RMode) (sign : Bool) (c : Cut) :
    (roundInt m sign c).q = c.q + (if (roundInt m sign c).incremented then 1 else 0) := rfl

theorem roundInt_inexact (m : RMode) (sign : Bool) (c : Cut) : (roundInt m sign c).inexact = (c.g || c.s) := rfl

/-- "`Incremented` implies `Inexact`" (R109). -/
theorem roundInt_incremented_inexact {m : RMode} {sign : Bool} {c : Cut}
    (h : (roundInt m sign c).incremented = true) : (roundInt m sign c).inexact = true := by
  cases m <;> simp_all [roundInt]

/-- An exact magnitude is never changed, in any mode (R112). -/
theorem roundInt_exact (m : RMode) (sign : Bool) (q : Nat) :
    roundInt m sign ⟨q, false, false⟩ = ⟨q, false, false⟩ := by
  cases m <;> simp [roundInt]

theorem cutAt_of_nonpos {N : Nat} {sh : Int} (st : Bool) (h : sh ≤ 0) :
    cutAt N sh st = ⟨N * 2 ^ (-sh).toNat, false, false⟩ := by
  simp [cutAt, h]

theorem cutAt_q_of_pos {N : Nat} {sh : Int} (st : Bool) (h : 0 < sh) : (cutAt N sh st).q = N / 2 ^ sh.toNat := by
  simp [cutAt, Int.not_le.mpr h]

end Sys2Proof.Machine
end

