-- ==== Sys2Proof/Laws/Safety.lean ====
section
/-! SUPPORT. What a command reads: every command reads `OPA`, and registers that agree in the bits read are the same operand. -/

namespace Sys2Proof

theorem Fmt.k_pos (F : Fmt) : 0 < F.k := by
  cases F <;> decide

theorem IntType.n_pos (T : IntType) : 0 < T.n := by
  cases T <;> decide

/-- Every command reads `OPA` (R64). -/
theorem Cmd.readWidths_opa_pos (c : Cmd) : 0 < c.readWidths.1 := by
  cases c with
  | arith op F => cases op <;> exact F.k_pos
  | i2f T F => exact T.n_pos
  | f2i F T => exact F.k_pos
  | f2iRmm F T => exact F.k_pos
  | f2f F G => exact F.k_pos
  | cmp op F => exact F.k_pos
  | issnan F => exact F.k_pos
  | scaled F => exact (by decide : 0 < 32)

namespace Machine

theorem MarkedReg.AgreeOn.refl (n : Nat) (r : MarkedReg) : r.AgreeOn n r := fun _ => ⟨rfl, rfl⟩

theorem MarkedReg.agreeOn_zero (r r' : MarkedReg) : r.AgreeOn 0 r' := fun h => absurd h (by decide)

/-- Registers that agree on the format's width hold the same operand. -/
theorem operandOf_eq_of_agreeOn {F : Fmt} {r r' : MarkedReg} (h : r.AgreeOn F.k r') :
    operandOf F r = operandOf F r' := by
  simp only [operandOf, lowBits, (h (Fmt.k_pos F)).2]

/-- A command takes the same operand, or meets the same refusal, from registers that agree on the format's width. -/
theorem withOperand_congr {F : Fmt} {r r' : MarkedReg} (h : r.AgreeOn F.k r')
    (k : Word → Host.Outcome State Fault Refusal) : withOperand F r k = withOperand F r' k := by
  have hv : lowBits F.k r.val = lowBits F.k r'.val := operandOf_eq_of_agreeOn h
  simp only [withOperand, (h (Fmt.k_pos F)).1, hv]

/-- An integer operand depends only on the low bits its type has. -/
theorem intValue_congr {T : IntType} {v v' : Word} (h : v.toNat % 2 ^ T.n = v'.toNat % 2 ^ T.n) :
    intValue T v = intValue T v' := by
  simp only [intValue, h]

end Machine
end Sys2Proof
end

