-- ==== Sys2Proof/Laws/Step.lean ====
section
/-! SUPPORT. What a step does, by the host operation that stands next. -/

namespace Sys2Proof.Machine

variable {s t : State} {rest : List HostOp}

theorem step_idle (h : s.host = []) : step s = .next s := by
  simp [step, nextRequest, h]

theorem step_command {v : Word} {i : Instr} (h : s.host = .wr 0 v :: rest)
    (hd : decode (v.setWidth 16) = .ok i) : step s = exec i { s with host := rest } := by
  simp only [step, nextRequest, h, requestOfWrite, hd, if_true]

theorem step_reserved {v : Word} {why : Reject} (h : s.host = .wr 0 v :: rest)
    (hd : decode (v.setWidth 16) = .error why) : step s = .refused (.reservedCommand why) := by
  simp only [step, nextRequest, h, requestOfWrite, hd, if_true]

theorem step_write {reg : Nat} {v : Word} (h : s.host = .wr reg v :: rest) (hr : reg ≠ 0) :
    step s = hostWrite reg v { s with host := rest } := by
  simp only [step, nextRequest, h, requestOfWrite, hr, if_false]

theorem step_read {reg : Nat} (h : s.host = .rd reg :: rest) :
    step s = hostRead reg { s with host := rest } := by
  simp only [step, nextRequest, h]

theorem step_reset (h : s.host = .reset :: rest) :
    step s = .next (resetEvent { s with host := rest }) := by
  simp only [step, nextRequest, h]

/-- A read that goes on changes only the host's side: the values read and the count of draws. -/
theorem hostRead_next {reg : Nat} (h : hostRead reg s = .next t) :
    ∃ v, readReg s reg = .ok v ∧
      t = { s with reads := v :: s.reads, draws := s.draws + (if readDraws s reg then 1 else 0) } := by
  unfold hostRead at h
  split at h
  · rename_i v hv; exact ⟨v, hv, by cases h; rfl⟩
  · cases h

/-- A write that goes on stores into one of the six writable registers and changes nothing else. -/
theorem hostWrite_next {reg : Nat} {v : Word} (h : hostWrite reg v s = .next t) :
    (reg = 1 ∧ t = { s with rm := v.setWidth 3 }) ∨ (reg = 2 ∧ t = { s with tp := v.setWidth 1 }) ∨
    (reg = 3 ∧ t = { s with flags := v.setWidth 7 }) ∨ (reg = 4 ∧ t = { s with opa := ⟨v, true⟩ }) ∨
    (reg = 5 ∧ t = { s with opb := ⟨v, true⟩ }) ∨ (reg = 6 ∧ t = { s with opc := ⟨v, true⟩ }) := by
  unfold hostWrite at h
  split at h <;> cases h <;> simp

/-- Everything a step can do when it goes on. -/
theorem step_next (h : step s = .next t) :
    (s.host = [] ∧ t = s) ∨
    (∃ v rest i, s.host = .wr 0 v :: rest ∧ decode (v.setWidth 16) = .ok i ∧
      exec i { s with host := rest } = .next t) ∨
    (∃ reg v rest, s.host = .wr reg v :: rest ∧ reg ≠ 0 ∧ hostWrite reg v { s with host := rest } = .next t) ∨
    (∃ reg rest, s.host = .rd reg :: rest ∧ hostRead reg { s with host := rest } = .next t) ∨
    (∃ rest, s.host = .reset :: rest ∧ t = resetEvent { s with host := rest }) := by
  match hs : s.host with
  | [] => rw [step_idle hs] at h; cases h; exact .inl ⟨rfl, rfl⟩
  | .wr 0 v :: rest =>
    match hd : decode (v.setWidth 16) with
    | .ok i => rw [step_command hs hd] at h; exact .inr (.inl ⟨v, rest, i, rfl, hd, h⟩)
    | .error why => rw [step_reserved hs hd] at h; cases h
  | .wr (n + 1) v :: rest =>
    rw [step_write hs n.succ_ne_zero] at h
    exact .inr (.inr (.inl ⟨n + 1, v, rest, rfl, n.succ_ne_zero, h⟩))
  | .rd reg :: rest => rw [step_read hs] at h; exact .inr (.inr (.inr (.inl ⟨reg, rest, rfl, h⟩)))
  | .reset :: rest => rw [step_reset hs] at h; cases h; exact .inr (.inr (.inr (.inr ⟨rest, rfl, rfl⟩)))

end Sys2Proof.Machine
end

