-- ==== Sys2Proof/Tests/Slice0.lean ====
section
/-! SUPPORT. Tests of the model: ill-formed terms the checks refuse; every constructor decoded from its word; single steps
against the vectors of 95_test_vectors.md, named by the vector; and for every obligation with hypotheses a witness that
meets them. -/

namespace Sys2Proof.Tests

open Sys2Proof.Machine

/-! ### Well-formedness -/

theorem test_wellFormed_refuses_self_conversion : (Cmd.f2f .f32 .f32).wellFormed = false := by decide
theorem test_wellFormed_refuses_scaled_x80 : (Cmd.scaled .x80).wellFormed = false := by decide
theorem test_wellFormed_refuses_nonzero_zero_field : CmdFields.wellFormed ⟨1, 0, 0, 0x01⟩ = false := by decide
theorem test_wellFormed_refuses_unknown_op :
    [0x00#8, 0x08#8, 0x0F#8, 0x14#8, 0x1F#8, 0x27#8, 0x2F#8, 0x31#8, 0xFF#8].all
      (fun op => !CmdFields.wellFormed ⟨0, 0, 1, op⟩) = true := by decide
theorem test_wellFormed_refuses_aux_on_add : CmdFields.wellFormed ⟨0, 1, 0, 0x01⟩ = false := by decide
theorem test_wellFormed_refuses_f2f_to_itself : CmdFields.wellFormed ⟨0, 2, 2, 0x13⟩ = false := by decide
theorem test_wellFormed_refuses_scaled_word_x80 : CmdFields.wellFormed ⟨0, 0, 2, 0x30⟩ = false := by decide
theorem test_wellFormed_refuses_register_11 :
    (HostOp.wr 11 0).wellFormed = false ∧ (HostOp.rd 11).wellFormed = false := by decide

/-! ### Decoding: `ZERO`, `AUX`, `FMT` and `OP` of every row, from R60 to R63 and R67 -/

/-- The command word of the four fields R60 gives it. -/
def word (aux fmt : BitVec 2) (op : BitVec 8) : Nat := (0b0000#4 ++ aux ++ fmt ++ op).toNat

theorem test_decode_add :
    [word 0b00 0b00 0x01, word 0b00 0b01 0x01, word 0b00 0b10 0x01, word 0b00 0b11 0x01].map
      (decodeTableWord 16) =
    [.addF32, .addF64, .addX80, .addF128].map some := by decide

theorem test_decode_sub :
    [word 0b00 0b00 0x02, word 0b00 0b01 0x02, word 0b00 0b10 0x02, word 0b00 0b11 0x02].map
      (decodeTableWord 16) =
    [.subF32, .subF64, .subX80, .subF128].map some := by decide

theorem test_decode_mul :
    [word 0b00 0b00 0x03, word 0b00 0b01 0x03, word 0b00 0b10 0x03, word 0b00 0b11 0x03].map
      (decodeTableWord 16) =
    [.mulF32, .mulF64, .mulX80, .mulF128].map some := by decide

theorem test_decode_div :
    [word 0b00 0b00 0x04, word 0b00 0b01 0x04, word 0b00 0b10 0x04, word 0b00 0b11 0x04].map
      (decodeTableWord 16) =
    [.divF32, .divF64, .divX80, .divF128].map some := by decide

theorem test_decode_rem :
    [word 0b00 0b00 0x05, word 0b00 0b01 0x05, word 0b00 0b10 0x05, word 0b00 0b11 0x05].map
      (decodeTableWord 16) =
    [.remF32, .remF64, .remX80, .remF128].map some := by decide

theorem test_decode_sqrt :
    [word 0b00 0b00 0x06, word 0b00 0b01 0x06, word 0b00 0b10 0x06, word 0b00 0b11 0x06].map
      (decodeTableWord 16) =
    [.sqrtF32, .sqrtF64, .sqrtX80, .sqrtF128].map some := by decide

theorem test_decode_fma :
    [word 0b00 0b00 0x07, word 0b00 0b01 0x07, word 0b00 0b10 0x07, word 0b00 0b11 0x07].map
      (decodeTableWord 16) =
    [.fmaF32, .fmaF64, .fmaX80, .fmaF128].map some := by decide

theorem test_decode_i2f :
    [word 0b00 0b00 0x10, word 0b01 0b00 0x10, word 0b10 0b00 0x10, word 0b11 0b00 0x10,
      word 0b00 0b01 0x10, word 0b01 0b01 0x10, word 0b10 0b01 0x10, word 0b11 0b01 0x10,
      word 0b00 0b10 0x10, word 0b01 0b10 0x10, word 0b10 0b10 0x10, word 0b11 0b10 0x10,
      word 0b00 0b11 0x10, word 0b01 0b11 0x10, word 0b10 0b11 0x10, word 0b11 0b11 0x10].map
      (decodeTableWord 16) =
    [.i2fI32F32, .i2fU32F32, .i2fI64F32, .i2fU64F32, .i2fI32F64, .i2fU32F64, .i2fI64F64,
      .i2fU64F64, .i2fI32X80, .i2fU32X80, .i2fI64X80, .i2fU64X80, .i2fI32F128, .i2fU32F128,
      .i2fI64F128, .i2fU64F128].map some := by decide

theorem test_decode_f2i :
    [word 0b00 0b00 0x11, word 0b01 0b00 0x11, word 0b10 0b00 0x11, word 0b11 0b00 0x11,
      word 0b00 0b01 0x11, word 0b01 0b01 0x11, word 0b10 0b01 0x11, word 0b11 0b01 0x11,
      word 0b00 0b10 0x11, word 0b01 0b10 0x11, word 0b10 0b10 0x11, word 0b11 0b10 0x11,
      word 0b00 0b11 0x11, word 0b01 0b11 0x11, word 0b10 0b11 0x11, word 0b11 0b11 0x11].map
      (decodeTableWord 16) =
    [.f2iF32I32, .f2iF32U32, .f2iF32I64, .f2iF32U64, .f2iF64I32, .f2iF64U32, .f2iF64I64,
      .f2iF64U64, .f2iX80I32, .f2iX80U32, .f2iX80I64, .f2iX80U64, .f2iF128I32, .f2iF128U32,
      .f2iF128I64, .f2iF128U64].map some := by decide

theorem test_decode_f2i_rmm :
    [word 0b00 0b00 0x12, word 0b01 0b00 0x12, word 0b10 0b00 0x12, word 0b11 0b00 0x12,
      word 0b00 0b01 0x12, word 0b01 0b01 0x12, word 0b10 0b01 0x12, word 0b11 0b01 0x12,
      word 0b00 0b10 0x12, word 0b01 0b10 0x12, word 0b10 0b10 0x12, word 0b11 0b10 0x12,
      word 0b00 0b11 0x12, word 0b01 0b11 0x12, word 0b10 0b11 0x12, word 0b11 0b11 0x12].map
      (decodeTableWord 16) =
    [.f2iRmmF32I32, .f2iRmmF32U32, .f2iRmmF32I64, .f2iRmmF32U64, .f2iRmmF64I32, .f2iRmmF64U32,
      .f2iRmmF64I64, .f2iRmmF64U64, .f2iRmmX80I32, .f2iRmmX80U32, .f2iRmmX80I64, .f2iRmmX80U64,
      .f2iRmmF128I32, .f2iRmmF128U32, .f2iRmmF128I64, .f2iRmmF128U64].map some := by decide

theorem test_decode_f2f :
    [word 0b01 0b00 0x13, word 0b10 0b00 0x13, word 0b11 0b00 0x13, word 0b00 0b01 0x13,
      word 0b10 0b01 0x13, word 0b11 0b01 0x13, word 0b00 0b10 0x13, word 0b01 0b10 0x13,
      word 0b11 0b10 0x13, word 0b00 0b11 0x13, word 0b01 0b11 0x13, word 0b10 0b11 0x13].map
      (decodeTableWord 16) =
    [.f2fF32F64, .f2fF32X80, .f2fF32F128, .f2fF64F32, .f2fF64X80, .f2fF64F128, .f2fX80F32,
      .f2fX80F64, .f2fX80F128, .f2fF128F32, .f2fF128F64, .f2fF128X80].map some := by decide

theorem test_decode_eq :
    [word 0b00 0b00 0x20, word 0b00 0b01 0x20, word 0b00 0b10 0x20, word 0b00 0b11 0x20].map
      (decodeTableWord 16) =
    [.eqF32, .eqF64, .eqX80, .eqF128].map some := by decide

theorem test_decode_eqs :
    [word 0b00 0b00 0x21, word 0b00 0b01 0x21, word 0b00 0b10 0x21, word 0b00 0b11 0x21].map
      (decodeTableWord 16) =
    [.eqsF32, .eqsF64, .eqsX80, .eqsF128].map some := by decide

theorem test_decode_leq :
    [word 0b00 0b00 0x22, word 0b00 0b01 0x22, word 0b00 0b10 0x22, word 0b00 0b11 0x22].map
      (decodeTableWord 16) =
    [.leqF32, .leqF64, .leqX80, .leqF128].map some := by decide

theorem test_decode_les :
    [word 0b00 0b00 0x23, word 0b00 0b01 0x23, word 0b00 0b10 0x23, word 0b00 0b11 0x23].map
      (decodeTableWord 16) =
    [.lesF32, .lesF64, .lesX80, .lesF128].map some := by decide

theorem test_decode_ltq :
    [word 0b00 0b00 0x24, word 0b00 0b01 0x24, word 0b00 0b10 0x24, word 0b00 0b11 0x24].map
      (decodeTableWord 16) =
    [.ltqF32, .ltqF64, .ltqX80, .ltqF128].map some := by decide

theorem test_decode_lts :
    [word 0b00 0b00 0x25, word 0b00 0b01 0x25, word 0b00 0b10 0x25, word 0b00 0b11 0x25].map
      (decodeTableWord 16) =
    [.ltsF32, .ltsF64, .ltsX80, .ltsF128].map some := by decide

theorem test_decode_issnan :
    [word 0b00 0b00 0x26, word 0b00 0b01 0x26, word 0b00 0b10 0x26, word 0b00 0b11 0x26].map
      (decodeTableWord 16) =
    [.issnanF32, .issnanF64, .issnanX80, .issnanF128].map some := by decide

theorem test_decode_scaled :
    [word 0b00 0b00 0x30, word 0b00 0b01 0x30, word 0b00 0b11 0x30].map
      (decodeTableWord 16) =
    [.scaledF32, .scaledF64, .scaledF128].map some := by decide

/-- R67's own words, bit by bit: `ADD.F32`, `I2F.I64.F64` and `SCALED.F128`. -/
theorem test_decode_bits :
    decode 0b0000000000000001#16 = .ok .addF32 ∧ decode 0b0000100100010000#16 = .ok .i2fI64F64 ∧
      decode 0b0000001100110000#16 = .ok .scaledF128 := by decide

/-- Where the conditions of R66 meet: the neighbours of every range of `OP`, and each field wrong alone. -/
theorem test_decode_refuses_reserved :
    [0x0000, 0x0008, 0x000F, 0x0014, 0x001F, 0x0027, 0x002F, 0x0031, 0x1001, 0x8001, 0x0401, 0x0C26, 0x0430, 0x0013,
      0x0513, 0x0A13, 0x0F13, 0x0230].map (decodeTableWord 16) = List.replicate 18 none := by decide

/-! ### Single steps against the vectors -/

/-- A state with the operands written. -/
def st (rm tp a b c : Nat) : State :=
  { State.reset with
    rm := BitVec.ofNat 3 rm, tp := BitVec.ofNat 1 tp
    opa := ⟨BitVec.ofNat 128 a, true⟩, opb := ⟨BitVec.ofNat 128 b, true⟩, opc := ⟨BitVec.ofNat 128 c, true⟩ }

/-- The fields of a record a vector lists: sign, exponent, significand, inexact, incremented, tiny. -/
abbrev RawFields := Nat × Int × Nat × Nat × Nat × Nat

/-- The fields of a valid record. -/
def rawFields (r : Raw) : Option RawFields :=
  if r.valid then some (r.sign.toNat, r.exp.toInt, r.sig.toNat, r.inexact.toNat, r.incre.toNat, r.tiny.toNat)
  else none

/-- The command goes on and leaves this result, these flags and this record. -/
def leaves (i : Instr) (s : State) (res fl : Nat) (raw : Option RawFields) : Bool :=
  match exec i s with
  | .next t => t.res.val.toNat == res && t.flags.toNat == fl && rawFields t.raw == raw
  | _ => false

/-- The commands' results and flags. -/
def outcomes (is : List Instr) (s : State) : List (Option (Nat × Nat)) :=
  is.map fun i => match exec i s with
    | .next t => some (t.res.val.toNat, t.flags.toNat)
    | _ => none

/-- The step goes on. -/
def isNext (o : Host.Outcome State Fault Refusal) : Bool :=
  match o with
  | .next _ => true
  | _ => false

/-- The reason of a refusal. -/
def refusal (o : Host.Outcome State Fault Refusal) : Option Refusal :=
  match o with
  | .refused r => some r
  | _ => none

theorem test_VA2_add_f32 :
    leaves .addF32 (st 0 0 0x3F800000 0x33800000 0)
      0x3F800000 0x01 (some (0, 0, 0x40000000000000000000000000000000, 1, 0, 0)) = true := by decide

theorem test_VA10_add_f32 :
    leaves .addF32 (st 0 0 0x7F7FFFFF 0x7F7FFFFF 0)
      0x7F800000 0x25 (some (0, 128, 0x7FFFFF80000000000000000000000000, 0, 0, 0)) = true := by decide

theorem test_VA27_sub_f32 :
    leaves .subF32 (st 0 0 0x7F800000 0x7F800000 0) 0x7FC00000 0x10 none = true := by decide

theorem test_VA40_add_f64 :
    leaves .addF64 (st 3 0 0x3FF0000000000000 0x3CA0000000000000 0)
      0x3FF0000000000001 0x21 (some (0, 0, 0x40000000000004000000000000000000, 1, 1, 0)) = true := by decide

theorem test_VA45_add_x80 :
    leaves .addX80 (st 3 0 0x3FFF8000000000000000 0x3FBF8000000000000000 0)
      0x3FFF8000000000000001 0x21 (some (0, 0, 0x40000000000000008000000000000000, 1, 1, 0)) = true := by decide

theorem test_VA47_add_f128 :
    leaves .addF128 (st 3 0 0x3FFF0000000000000000000000000000 0x3F8E0000000000000000000000000000 0)
      0x3FFF0000000000000000000000000001 0x21 (some (0, 0, 0x40000000000000000000000000004000, 1, 1, 0)) = true := by decide

theorem test_VM15_mul_f32 :
    leaves .mulF32 (st 0 0 0x00800000 0x3F7FFFFF 0)
      0x00800000 0x63 (some (0, -127, 0x7FFFFF80000000000000000000000000, 0, 0, 1)) = true := by decide

theorem test_VM34_mul_f64 :
    leaves .mulF64 (st 3 0 0x3FF0000000000001 0x3FF0000000000001 0)
      0x3FF0000000000003 0x21 (some (0, 0, 0x4000000000000C000000000000000000, 1, 1, 0)) = true := by decide

theorem test_VM35_mul_x80 :
    leaves .mulX80 (st 0 0 0x4000C000000000000000 0x4001A000000000000000 0)
      0x4002F000000000000000 0x00 (some (0, 3, 0x78000000000000000000000000000000, 0, 0, 0)) = true := by decide

theorem test_VM36_mul_f128 :
    leaves .mulF128 (st 0 0 0x40008000000000000000000000000000 0x40014000000000000000000000000000 0)
      0x4002E000000000000000000000000000 0x00 (some (0, 3, 0x78000000000000000000000000000000, 0, 0, 0)) = true := by decide

theorem test_VD1_div_f32 :
    leaves .divF32 (st 0 0 0x3F800000 0x40400000 0)
      0x3EAAAAAB 0x21 (some (0, -2, 0x55555580000000000000000000000000, 1, 1, 0)) = true := by decide

theorem test_VD6_div_f32 :
    leaves .divF32 (st 0 0 0x3F800000 0x00000000 0) 0x7F800000 0x08 none = true := by decide

theorem test_VD22_div_f64 :
    leaves .divF64 (st 3 0 0x3FF0000000000000 0x4008000000000000 0)
      0x3FD5555555555556 0x21 (some (0, -2, 0x55555555555558000000000000000000, 1, 1, 0)) = true := by decide

theorem test_VD25_div_x80 :
    leaves .divX80 (st 0 0 0x3FFF8000000000000000 0x4000C000000000000000 0)
      0x3FFDAAAAAAAAAAAAAAAB 0x21 (some (0, -2, 0x55555555555555558000000000000000, 1, 1, 0)) = true := by decide

theorem test_VD24_div_f128 :
    leaves .divF128 (st 3 0 0x3FFF0000000000000000000000000000 0x40008000000000000000000000000000 0)
      0x3FFD5555555555555555555555555556 0x21 (some (0, -2, 0x55555555555555555555555555558000, 1, 1, 0)) = true := by decide

theorem test_VQ2_sqrt_f32 :
    leaves .sqrtF32 (st 3 0 0x40000000 0 0)
      0x3FB504F4 0x21 (some (0, 0, 0x5A827A00000000000000000000000000, 1, 1, 0)) = true := by decide

theorem test_VQ17_sqrt_f64 :
    leaves .sqrtF64 (st 0 0 0x4000000000000000 0 0)
      0x3FF6A09E667F3BCD 0x21 (some (0, 0, 0x5A827999FCEF34000000000000000000, 1, 1, 0)) = true := by decide

theorem test_VQ20_sqrt_x80 :
    leaves .sqrtX80 (st 3 0 0x40008000000000000000 0 0)
      0x3FFFB504F333F9DE6485 0x21 (some (0, 0, 0x5A827999FCEF32428000000000000000, 1, 1, 0)) = true := by decide

theorem test_VQ21_sqrt_f128 :
    leaves .sqrtF128 (st 0 0 0x40000000000000000000000000000000 0 0)
      0x3FFF6A09E667F3BCC908B2FB1366EA95 0x01 (some (0, 0, 0x5A827999FCEF32422CBEC4D9BAA54000, 1, 0, 0)) = true := by decide

theorem test_VE1_rem_f32 :
    leaves .remF32 (st 0 0 0x40A00000 0x40400000 0)
      0xBF800000 0x00 (some (1, 0, 0x40000000000000000000000000000000, 0, 0, 0)) = true := by decide

theorem test_VE8_rem_f32 :
    leaves .remF32 (st 0 0 0x40400000 0x40000000 0)
      0xBF800000 0x00 (some (1, 0, 0x40000000000000000000000000000000, 0, 0, 0)) = true := by decide

theorem test_VE18_rem_f64 :
    leaves .remF64 (st 0 0 0x4014000000000000 0x4008000000000000 0)
      0xBFF0000000000000 0x00 (some (1, 0, 0x40000000000000000000000000000000, 0, 0, 0)) = true := by decide

theorem test_VE19_rem_x80 :
    leaves .remX80 (st 0 0 0x4001A000000000000000 0x4000C000000000000000 0)
      0xBFFF8000000000000000 0x00 (some (1, 0, 0x40000000000000000000000000000000, 0, 0, 0)) = true := by decide

theorem test_VE20_rem_f128 :
    leaves .remF128 (st 0 0 0x40014000000000000000000000000000 0x40008000000000000000000000000000 0)
      0xBFFF0000000000000000000000000000 0x00 (some (1, 0, 0x40000000000000000000000000000000, 0, 0, 0)) = true := by decide

theorem test_VF2_fma_f32 :
    leaves .fmaF32 (st 0 0 0x3F800800 0x3F800800 0xBF801000)
      0x33800000 0x00 (some (0, -24, 0x40000000000000000000000000000000, 0, 0, 0)) = true := by decide

theorem test_VF4_fma_f32 :
    leaves .fmaF32 (st 4 0 0x3F800001 0x3F800001 0xBF800000)
      0x34800001 0x21 (some (0, -22, 0x40000080000000000000000000000000, 1, 1, 0)) = true := by decide

theorem test_VF27_fma_f64 :
    leaves .fmaF64 (st 0 0 0x3FF0000000000001 0x3FF0000000000001 0xBFF0000000000000)
      0x3CC0000000000000 0x01 (some (0, -51, 0x40000000000000000000000000000000, 1, 0, 0)) = true := by decide

theorem test_VF29_fma_x80 :
    leaves .fmaX80 (st 0 0 0x40008000000000000000 0x4000C000000000000000 0x40018000000000000000)
      0x4002A000000000000000 0x00 (some (0, 3, 0x50000000000000000000000000000000, 0, 0, 0)) = true := by decide

theorem test_VF30_fma_f128 :
    leaves .fmaF128
        (st 0 0 0x40000000000000000000000000000000 0x40008000000000000000000000000000 0x40010000000000000000000000000000)
      0x40024000000000000000000000000000 0x00 (some (0, 3, 0x50000000000000000000000000000000, 0, 0, 0)) = true := by decide

theorem test_VI6_i2f_i32_f32 :
    leaves .i2fI32F32 (st 0 0 0xFEFFFFFF 0 0) 0xCB800000 0x01 none = true := by decide

theorem test_VI14_i2f_u32_f32 :
    leaves .i2fU32F32 (st 0 0 0xFFFFFFFF 0 0) 0x4F800000 0x21 none = true := by decide

theorem test_VI19_i2f_u32_f64 :
    leaves .i2fU32F64 (st 0 0 0xFFFFFFFF 0 0) 0x41EFFFFFFFE00000 0x00 none = true := by decide

theorem test_VI21_i2f_u64_f64 :
    leaves .i2fU64F64 (st 0 0 0xFFFFFFFFFFFFFFFF 0 0) 0x43F0000000000000 0x21 none = true := by decide

theorem test_VI24_i2f_i64_f64 :
    leaves .i2fI64F64 (st 0 0 0x0020000000000001 0 0) 0x4340000000000000 0x01 none = true := by decide

theorem test_VI28_i2f_u64_x80 :
    leaves .i2fU64X80 (st 0 0 0xFFFFFFFFFFFFFFFF 0 0) 0x403EFFFFFFFFFFFFFFFF 0x00 none = true := by decide

theorem test_VI32_i2f_i32_f128 :
    leaves .i2fI32F128 (st 0 0 0xFFFFFFFF 0 0) 0xBFFF0000000000000000000000000000 0x00 none = true := by decide

theorem test_VJ5_f2i_f32_i32 :
    leaves .f2iF32I32 (st 2 0 0xC0200000 0 0) 0xFFFFFFFD 0x01 none = true := by decide

theorem test_VJ35_f2i_f32_u32 :
    leaves .f2iF32U32 (st 0 0 0x4F7FFFFF 0 0) 0xFFFFFF00 0x00 none = true := by decide

theorem test_VJ48_f2i_f32_i64 :
    leaves .f2iF32I64 (st 0 0 0xDF000000 0 0) 0x8000000000000000 0x00 none = true := by decide

theorem test_VJ52_f2i_f64_i32 :
    leaves .f2iF64I32 (st 1 0 0x41DFFFFFFFE00000 0 0) 0x7FFFFFFF 0x01 none = true := by decide

theorem test_VJ62_f2i_f64_i64 :
    leaves .f2iF64I64 (st 5 0 0xBFF8000000000000 0 0) 0xFFFFFFFFFFFFFFFF 0x01 none = true := by decide

theorem test_VJ66_f2i_f128_i64 :
    leaves .f2iF128I64 (st 1 0 0x3FFF8000000000000000000000000000 0 0) 0x0000000000000001 0x01 none = true := by decide

theorem test_VJ67_f2i_x80_i32 :
    leaves .f2iX80I32 (st 0 0 0x4000C000000000000000 0 0) 0x00000003 0x00 none = true := by decide

theorem test_VJ70_f2i_f128_u64 :
    leaves .f2iF128U64 (st 1 0 0x403EFFFFFFFFFFFFFFFF800000000000 0 0) 0xFFFFFFFFFFFFFFFF 0x01 none = true := by decide

theorem test_VJ6_f2i_rmm_f32_i32 :
    leaves .f2iRmmF32I32 (st 0 0 0xC0200000 0 0) 0xFFFFFFFE 0x01 none = true := by decide

theorem test_VJ27_f2i_rmm_f32_u32 :
    leaves .f2iRmmF32U32 (st 0 0 0xBF000000 0 0) 0x00000000 0x01 none = true := by decide

theorem test_VJ56_f2i_rmm_f64_i32 :
    leaves .f2iRmmF64I32 (st 0 0 0xC1E0000000100000 0 0) 0x80000000 0x01 none = true := by decide

theorem test_VK5_f2f_f32_f64 :
    leaves .f2fF32F64 (st 0 0 0x7FC12345 0 0) 0x7FF82468A0000000 0x00 none = true := by decide

theorem test_VK8_f2f_f32_x80 :
    leaves .f2fF32X80 (st 0 0 0x7F800001 0 0) 0x7FFFC000010000000000 0x10 none = true := by decide

theorem test_VK10_f2f_f32_f128 :
    leaves .f2fF32F128 (st 0 0 0x3EAAAAAB 0 0) 0x3FFD5555560000000000000000000000 0x00 none = true := by decide

theorem test_VK11_f2f_f64_f128 :
    leaves .f2fF64F128 (st 0 0 0x0000000000000001 0 0) 0x3BCD0000000000000000000000000000 0x00 none = true := by decide

theorem test_VK14_f2f_f64_x80 :
    leaves .f2fF64X80 (st 0 0 0x7FF8000000000001 0 0) 0x7FFFC000000000000800 0x00 none = true := by decide

theorem test_VK18_f2f_x80_f128 :
    leaves .f2fX80F128 (st 0 0 0xFFFF8000000000000005 0 0) 0xFFFF800000000000000A000000000000 0x10 none = true := by decide

theorem test_VK28_f2f_f64_f32 :
    leaves .f2fF64F32 (st 5 0 0x37A16C262777579C 0 0)
      0x000116C3 0x63 (some (0, -133, 0x45B09880000000000000000000000000, 1, 0, 1)) = true := by decide

theorem test_VK32_f2f_f64_f32 :
    leaves .f2fF64F32 (st 1 1 0x380FFFFFF8000000 0 0)
      0x007FFFFF 0x43 (some (0, -127, 0x7FFFFF80000000000000000000000000, 1, 0, 1)) = true := by decide

theorem test_VK42_f2f_x80_f64 :
    leaves .f2fX80F64 (st 3 0 0x3FFDAAAAAAAAAAAAAAAB 0 0)
      0x3FD5555555555556 0x21 (some (0, -2, 0x55555555555558000000000000000000, 1, 1, 0)) = true := by decide

theorem test_VK44_f2f_x80_f32 :
    leaves .f2fX80F32 (st 0 0 0x7FFF8000000000000001 0 0) 0x7FC00000 0x10 none = true := by decide

theorem test_VK50_f2f_f128_x80 :
    leaves .f2fF128X80 (st 3 0 0x00000000000000000000000000000001 0 0)
      0x00000000000000000001 0x63 (some (0, -16494, 0x40000000000000000000000000000000, 0, 0, 1)) = true := by decide

theorem test_VK48_f2f_f128_f64 :
    leaves .f2fF128F64 (st 3 0 0x3FFD5555555555555555555555555555 0 0)
      0x3FD5555555555556 0x21 (some (0, -2, 0x55555555555558000000000000000000, 1, 1, 0)) = true := by decide

theorem test_VK55_f2f_f128_f32 :
    leaves .f2fF128F32 (st 0 0 0x7FFE0000000000000000000000000000 0 0)
      0x7F800000 0x25 (some (0, 16383, 0x40000000000000000000000000000000, 0, 0, 0)) = true := by decide

/-- VJ29: the value is the parameter's, whatever it is. -/
theorem test_VJ29_f2i_f32_i32 (v : BitVec 64) (h : Config.intInvalid .i32 .posOverflow = v) :
    ∃ t, exec .f2iF32I32 (st 0 0 0x4F000000 0 0) = .next t ∧ t.res.val = BitVec.ofNat 128 (v.toNat % 2 ^ 32) ∧
      t.flags = 0x10#7 := by
  subst h
  exact ⟨_, rfl, rfl, by decide⟩

theorem test_VC8_compares_f32 :
    outcomes [.eqF32, .eqsF32, .leqF32, .lesF32, .ltqF32, .ltsF32, .issnanF32]
        (st 7 0 0xFF800000 0xFF7FFFFF 0) =
      [some (0, 0x00), some (0, 0x00), some (1, 0x00), some (1, 0x00), some (1, 0x00), some (1, 0x00), some (0, 0x00)] := by
  decide

theorem test_VC15_compares_f32 :
    outcomes [.eqF32, .eqsF32, .leqF32, .lesF32, .ltqF32, .ltsF32, .issnanF32]
        (st 7 0 0x7FC00000 0x3F800000 0) =
      [some (0, 0x00), some (0, 0x00), some (0, 0x00), some (0, 0x10), some (0, 0x00), some (0, 0x10), some (0, 0x00)] := by
  decide

theorem test_VC22_compares_f64 :
    outcomes [.eqF64, .eqsF64, .leqF64, .lesF64, .ltqF64, .ltsF64, .issnanF64]
        (st 7 0 0x7FF0000000000001 0x3FF0000000000000 0) =
      [some (0, 0x10), some (0, 0x10), some (0, 0x10), some (0, 0x10), some (0, 0x10), some (0, 0x10), some (1, 0x00)] := by
  decide

theorem test_VC24_compares_f64 :
    outcomes [.eqF64, .eqsF64, .leqF64, .lesF64, .ltqF64, .ltsF64, .issnanF64]
        (st 7 0 0x8000000000000000 0x0000000000000000 0) =
      [some (1, 0x00), some (1, 0x00), some (1, 0x00), some (1, 0x00), some (0, 0x00), some (0, 0x00), some (0, 0x00)] := by
  decide

theorem test_VC28_compares_x80 :
    outcomes [.eqX80, .eqsX80, .leqX80, .lesX80, .ltqX80, .ltsX80, .issnanX80]
        (st 7 0 0xBFFF8000000000000000 0x00000000000000000001 0) =
      [some (0, 0x00), some (0, 0x00), some (1, 0x00), some (1, 0x00), some (1, 0x00), some (1, 0x00), some (0, 0x00)] := by
  decide +kernel

theorem test_VC31_compares_f128 :
    outcomes [.eqF128, .eqsF128, .leqF128, .lesF128, .ltqF128, .ltsF128, .issnanF128]
        (st 7 0 0x7FFF0000000000000000000000000001 0x3FFF0000000000000000000000000000 0) =
      [some (0, 0x10), some (0, 0x10), some (0, 0x10), some (0, 0x10), some (0, 0x10), some (0, 0x10), some (1, 0x00)] := by
  decide

theorem test_VC33_compares_f128 :
    outcomes [.eqF128, .eqsF128, .leqF128, .lesF128, .ltqF128, .ltsF128, .issnanF128]
        (st 7 0 0x80000000000000000000000000000000 0x00000000000000000000000000000000 0) =
      [some (1, 0x00), some (1, 0x00), some (1, 0x00), some (1, 0x00), some (0, 0x00), some (0, 0x00), some (0, 0x00)] := by
  decide

/-- The state VS1's multiplication leaves, and VS23's and VS24's. -/
def withRecord (F : Fmt) (exp : Int) (sig : Nat) (scale : Nat) : State :=
  { st 0 0 scale 0 0 with
    raw := ⟨true, F, false, false, false, false, BitVec.ofInt 32 exp, BitVec.ofNat 128 sig⟩
    res := ⟨0, true⟩ }

theorem test_VS3_scaled_f32 :
    outcomes [.scaledF32] (withRecord .f32 128 0x60000000000000000000000000000000 0xFFFFFF02) =
      [some (0x00C00000, 0)] := by decide
theorem test_VS4_VS5_scaled_f32_out_of_range :
    [0, 0xFFFFFF01].map (fun sc =>
      refusal (exec .scaledF32 (withRecord .f32 128 0x60000000000000000000000000000000 sc))) =
      List.replicate 2 (some .scaledExponentOutOfRange) := by decide
theorem test_VS23_scaled_f64 :
    outcomes [.scaledF64] (withRecord .f64 1024 0x7FFFFFFFFFFFFC000000000000000000 0xFFFFFA00) =
      [some (0x1FFFFFFFFFFFFFFF, 0)] := by decide
theorem test_VS24_scaled_f128 :
    outcomes [.scaledF128] (withRecord .f128 16384 0x60000000000000000000000000000000 0xFFFFA000) =
      [some (0x1FFF8000000000000000000000000000, 0)] := by decide

/-- A state with these host operations to come. -/
def hosted (ops : List HostOp) (s : State) : State := { s with host := ops }

theorem test_VX1_VX5_reserved_words :
    [0x0000, 0x1001, 0x0401, 0x0013, 0x0230, 0x0008].map (fun w => refusal (step (hosted [.wr 0 w] (st 0 0 1 1 1)))) =
      [some (.reservedCommand .unknownOp), some (.reservedCommand .zeroFieldNotZero),
       some (.reservedCommand .auxNotZero), some (.reservedCommand .sameFormat),
       some (.reservedCommand .noScaledX80), some (.reservedCommand .unknownOp)] := by decide
theorem test_VX11_VX13_non_canonical_x80 :
    [refusal (exec .addX80 (st 0 0 0x3FFF0000000000000001 0x3FFF8000000000000000 0)),
     refusal (exec .sqrtX80 (st 0 0 0x00008000000000000000 0 0)),
     refusal (exec .issnanX80 (st 0 0 0x7FFF0000000000000000 0 0))] =
      List.replicate 3 (some .nonCanonicalOperand) := by decide
theorem test_VX14_VX28_nothing_written :
    [refusal (step (hosted [.wr 0 0x0001] { State.reset with opa := ⟨0x3F800000, true⟩ })),
     refusal (step (hosted [.rd 7] State.reset)), refusal (step (hosted [.rd 6] State.reset)),
     refusal (step (State.reset.withFetchWord 16 0x0030))] =
      [some .unwrittenOperand, some .unwrittenRead, some .unwrittenRead, some .noRecord] := by decide
theorem test_VX26_rm_reads_what_was_written :
    (match step (hosted [.rd 1] (st 7 0 0 0 0)) with | .next t => t.reads | _ => []) = [7] := by decide

/-- The first step after reset runs the word placed there; `SCALED` alone has no record yet (R187). -/
theorem test_first_step_runs :
    [0x0001, 0x0307, 0x0810, 0x0B11, 0x0212, 0x0413, 0x0025, 0x0326].all
      (fun w => isNext (step (State.reset.withFetchWord 16 w))) = true := by decide

/-! ### Witnesses: for each obligation with hypotheses, a state and operands that meet all of them, clause by clause -/

theorem next_of_isNext {o : Host.Outcome State Fault Refusal} (h : isNext o = true) : ∃ t, o = .next t := by
  cases o with
  | next t => exact ⟨t, rfl⟩
  | fault f => cases h
  | refused r => cases h

/-- What the step leaves, for stating a witness on it. -/
def after (o : Host.Outcome State Fault Refusal) : State :=
  match o with
  | .next t => t
  | _ => State.reset

theorem next_after {o : Host.Outcome State Fault Refusal} (h : isNext o = true) : o = .next (after o) := by
  obtain ⟨t, rfl⟩ := next_of_isNext h
  rfl

/-- The operands 1.0 and 2.0 of `F32`, written, in mode `NE`. -/
def st12 : State := st 0 0 0x3F800000 0x40000000 0x3F800000

/-- Written operand registers hold canonical patterns of the format. -/
def operandsFit (F : Fmt) (s : State) : Bool :=
  [s.opa, s.opb, s.opc].all fun r => r.written && classOf F (operandOf F r) != .nonCanonical

theorem operandOk_of_fit {F : Fmt} {s : State} (h : operandsFit F s = true) :
    OperandOk F s.opa ∧ OperandOk F s.opb ∧ OperandOk F s.opc := by
  simpa [operandsFit, OperandOk, and_assoc] using h

theorem commandOk_arith {op : ArithOp} {F : Fmt} {s : State} (hm : s.rm.toNat < 6) (h : operandsFit F s = true) :
    CommandOk (.arith op F) s := by
  obtain ⟨ha, hb, hc⟩ := operandOk_of_fit h
  refine ⟨fun _ => hm, ?_, fun F' h' => by cases h'⟩
  cases op <;> exact ⟨ha, fun _ => hb, fun _ => hc⟩

theorem commandOk_f2f {F G : Fmt} {s : State} (hm : s.rm.toNat < 6) (h : operandsFit F s = true) :
    CommandOk (.f2f F G) s :=
  ⟨fun _ => hm, ⟨(operandOk_of_fit h).1, fun h2 => by cases h2; contradiction, fun h3 => by cases h3; contradiction⟩,
    fun F' h' => by cases h'⟩

/-- `ReservedWordsAreRefused`, `StepRunsTheDecodedCommand` and the statements on host accesses: a state with any host
operation first. -/
theorem witness_host_operation (op : HostOp) (rest : List HostOp) : ∃ s : State, s.host = op :: rest :=
  ⟨hosted (op :: rest) State.reset, rfl⟩

theorem witness_StepRunsTheDecodedCommand :
    (hosted [.wr 0 0x0001] st12).host = [.wr 0 0x0001] ∧
      decode ((0x0001#128).extractLsb' 0 16) = .ok .addF32 := by decide

theorem witness_NothingChangesBetweenAccesses : State.reset.host = [] := rfl

theorem witness_ResetLeavesTheStateOfTheTable : (hosted [.reset] st12).host = .reset :: [] := rfl

theorem witness_HostWriteOnlyStoresTheValue :
    ∀ reg ∈ [1, 2, 3, 4, 5, 6], (hosted [.wr reg 0xFF] st12).host = [.wr reg 0xFF] := by decide

/-- A state whose record is valid and whose `RES` is written: what `ADD.F32` leaves. -/
def afterAdd : State := after (exec .addF32 st12)

theorem witness_HostReadDeliversTheRegister :
    (∀ reg ∈ [1, 2, 3, 4, 5, 6, 7, 8, 9, 10], (hosted [.rd reg] afterAdd).host = [.rd reg]) ∧
      afterAdd.opa.written = true ∧ afterAdd.opb.written = true ∧ afterAdd.opc.written = true ∧
      afterAdd.res.written = true ∧ afterAdd.raw.valid = true := by decide

theorem witness_ReadOfAnInvalidRecordIsSomeValue :
    ∀ reg ∈ [8, 9, 10], (hosted [.rd reg] st12).host = [.rd reg] ∧ (hosted [.rd reg] st12).raw.valid = false ∧
      8 ≤ reg ∧ reg ≤ 10 := by decide

theorem witness_MisusedAccessesAreRefused :
    (∀ reg ∈ [7, 10], (hosted [.wr reg 0] st12).host = [.wr reg 0] ∧ 7 ≤ reg ∧ reg ≤ 10) ∧
      (hosted [.wr 11 0] st12).host = [.wr 11 0] ∧ (hosted [.rd 11] st12).host = [.rd 11] ∧
      (hosted [.rd 0] st12).host = [.rd 0] ∧
      (∀ reg ∈ [4, 5, 6, 7], (hosted [.rd reg] State.reset).host = [.rd reg]) ∧
      State.reset.opa.written = false ∧ State.reset.opb.written = false ∧ State.reset.opc.written = false ∧
      State.reset.res.written = false := by decide

theorem afterAdd_inv : afterAdd.Inv :=
  ⟨fun _ => by decide +kernel, fun _ => by decide⟩

theorem witness_EveryStepKeepsTheInvariant :
    (hosted [.wr 0 0x0330] (after (exec .addF32 st12))).Inv ∧
      ∃ t, step (hosted [.wr 0 0x0001] afterAdd) = .next t := by
  exact ⟨⟨fun _ => by decide +kernel, fun _ => by decide⟩, next_of_isNext (by decide)⟩

theorem witness_OnlyTheHostChangesModesAndOperands :
    (after (step (hosted [.wr 1 5] st12))).rm ≠ st12.rm ∧ (after (step (hosted [.wr 2 1] st12))).tp ≠ st12.tp ∧
      (after (step (hosted [.wr 4 5] st12))).opa ≠ st12.opa ∧ (after (step (hosted [.wr 5 5] st12))).opb ≠ st12.opb ∧
      (after (step (hosted [.wr 6 5] st12))).opc ≠ st12.opc ∧
      [1, 2, 4, 5, 6].all (fun reg => isNext (step (hosted [.wr reg 5] st12))) = true := by decide

theorem witness_OnlyTheHostClearsFlags :
    let s := hosted [.wr 3 0] { st12 with flags := 0x7F#7 }
    isNext (step s) = true ∧ s.flags &&& (after (step s)).flags ≠ s.flags := by decide

theorem witness_OnlyCommandsChangeResultAndRecord :
    let s := hosted [.wr 0 0x0001] st12
    isNext (step s) = true ∧ (after (step s)).res ≠ s.res ∧ (after (step s)).raw ≠ s.raw := by decide

/-- Two instances, each with a host write to come. -/
def twoInstances : System := [hosted [.wr 4 1] st12, hosted [.wr 5 2] st12]

theorem witness_InstancesAreIndependent :
    ∃ a b c, System.stepAt 0 twoInstances = .next a ∧ System.stepAt 1 a = .next b ∧
      System.stepAt 1 twoInstances = .next c := ⟨_, _, _, rfl, rfl, rfl⟩

theorem witness_CommandsCompleteUnlessMisused :
    CommandOk Instr.addF32.toCmd st12 ∧ ¬ CommandOk Instr.addF32.toCmd { st12 with rm := 6 } :=
  ⟨commandOk_arith (by decide) (by decide), fun h => absurd (h.1 rfl) (by decide)⟩

/-- `CommandOk` of a command of each other family, `SCALED` with a record at the edge of its range among them. -/
theorem witness_CommandsCompleteUnlessMisused_families :
    CommandOk Instr.i2fI32F32.toCmd st12 ∧ CommandOk Instr.f2iF32I32.toCmd st12 ∧
      CommandOk Instr.f2iRmmF32I32.toCmd { st12 with rm := 7 } ∧ CommandOk Instr.f2fF32F64.toCmd st12 ∧
      CommandOk Instr.eqF32.toCmd { st12 with rm := 7 } ∧ CommandOk Instr.issnanF32.toCmd { st12 with rm := 7 } ∧
      CommandOk Instr.scaledF32.toCmd (withRecord .f32 128 (2 ^ 126) 0xFFFFFF02) := by
  have h1 : OperandOk .f32 st12.opa := ⟨rfl, by decide⟩
  have h2 : OperandOk .f32 st12.opb := ⟨rfl, by decide⟩
  refine ⟨⟨fun _ => by decide, rfl, nofun⟩, ⟨fun _ => by decide, ⟨h1, nofun, nofun⟩, nofun⟩,
    ⟨nofun, ⟨h1, nofun, nofun⟩, nofun⟩, ⟨fun _ => by decide, ⟨h1, nofun, nofun⟩, nofun⟩,
    ⟨nofun, ⟨h1, fun _ => h2, nofun⟩, nofun⟩, ⟨nofun, ⟨h1, nofun, nofun⟩, nofun⟩, ⟨nofun, rfl, fun F h => ?_⟩⟩
  cases h
  exact ⟨rfl, rfl, by decide +kernel, by decide +kernel⟩

/-- A state with these operand registers. -/
def stRegs (rm : BitVec 3) (a b c : MarkedReg) : State := { State.reset with rm := rm, opa := a, opb := b, opc := c }

/-- One state for each clause, with `+0`, the pseudo-denormal `2^63` and an unwritten register as operands of
`FMA.X80`. -/
theorem witness_MisusedCommandsAreRefusedByName :
    let ok : MarkedReg := ⟨0, true⟩
    let bad : MarkedReg := ⟨0x8000000000000000, true⟩
    let unwritten : MarkedReg := ⟨0, false⟩
    Instr.fmaX80.toCmd.usesRM = true ∧ Instr.fmaX80.toCmd.floatOperands = some (.x80, 3) ∧
      6 ≤ (stRegs 6 ok ok ok).rm.toNat ∧ (stRegs 5 unwritten ok ok).rm.toNat < 6 ∧
      (stRegs 5 unwritten ok ok).opa.written = false ∧
      classOf .x80 (operandOf .x80 (stRegs 5 bad ok ok).opa) = .nonCanonical ∧
      classOf .x80 (operandOf .x80 (stRegs 5 ok unwritten ok).opa) ≠ .nonCanonical ∧
      (stRegs 5 ok unwritten ok).opb.written = false ∧
      classOf .x80 (operandOf .x80 (stRegs 5 ok bad ok).opb) = .nonCanonical ∧
      classOf .x80 (operandOf .x80 (stRegs 5 ok ok unwritten).opb) ≠ .nonCanonical ∧
      (stRegs 5 ok ok unwritten).opc.written = false ∧
      classOf .x80 (operandOf .x80 (stRegs 5 ok ok bad).opc) = .nonCanonical := by decide +kernel

/-- The four statements of what every command that goes on leaves: a command of each shape that goes on. -/
theorem witness_commands_go_on :
    [Instr.addF32, .subF32, .mulF32, .divF32, .remF32, .sqrtF32, .fmaF32, .i2fI32F32, .f2iF32I32, .f2iRmmF32I32,
      .f2fF32F64, .eqF32, .eqsF32, .leqF32, .lesF32, .ltqF32, .ltsF32, .issnanF32].all
      (fun i => isNext (exec i st12)) = true ∧
    isNext (exec .f2fF64F32 (st 0 0 0x3FF0000000000000 0 0)) = true ∧
    isNext (exec .scaledF32 (withRecord .f32 128 (2 ^ 126) 0xFFFFFF02)) = true := by decide +kernel

theorem witness_RecordEffectOfCommands :
    Instr.scaledF32.toCmd = .scaled .f32 ∧ Instr.eqF32.toCmd.writesRecord = false ∧
      Instr.f2fF32F64.toCmd.writesRecord = false ∧ Instr.f2fF64F32.toCmd.writesRecord = true ∧
      Instr.addF32.toCmd.writesRecord = true ∧ (after (exec .eqF32 st12)).raw.valid = false ∧
      isNext (exec .eqF32 st12) = true := by decide

/-- Registers that differ above the operand's width, for a float operand, an integer and a scale, and in a register not read
at all. -/
theorem witness_HighOperandBitsAreIgnored :
    let wide : MarkedReg := ⟨0xF0000000000000013F800000#128, true⟩
    wide ≠ st12.opa ∧ wide.AgreeOn Instr.addF32.toCmd.readWidths.1 st12.opa ∧
      wide.AgreeOn Instr.i2fU32F32.toCmd.readWidths.1 st12.opa ∧
      wide.AgreeOn Instr.scaledF32.toCmd.readWidths.1 st12.opa ∧
      (⟨5, false⟩ : MarkedReg).AgreeOn Instr.addF32.toCmd.readWidths.2.2 st12.opc ∧
      (⟨5, false⟩ : MarkedReg).AgreeOn Instr.sqrtF32.toCmd.readWidths.2.1 st12.opb ∧
      isNext (exec .addF32 st12) = true ∧ isNext (exec .i2fU32F32 st12) = true ∧ isNext (exec .sqrtF32 st12) = true :=
  ⟨by decide, fun _ => by decide, fun _ => by decide, fun _ => by decide, fun h => absurd h (by decide),
    fun h => absurd h (by decide), by decide, by decide, by decide⟩

theorem witness_CommandsWithoutRmIgnoreTheEnvironment :
    Instr.ltsF32.toCmd.usesRM = false ∧ Instr.f2iRmmF32I32.toCmd.usesRM = false ∧
      Instr.issnanF32.toCmd.usesRM = false ∧ Instr.scaledF32.toCmd.usesRM = false := by decide

/-- A signaling NaN, a quiet one of the same magnitude once quieted but for its sign, and a number. -/
def nanOperands : List Word := [0x7F800001#128, 0xFFC00001#128, 0x3F800000#128]

theorem witness_NanSelectionIsLargestQuietedOperand :
    (∀ x ∈ nanOperands, x.toNat < 2 ^ Fmt.f32.k) ∧ (∃ x ∈ nanOperands, isNaN .f32 x = true) ∧
      magOf .f32 (quiet .f32 0x7F800001#128) = magOf .f32 (nanSelect .f32 nanOperands) ∧
      nanOperands.Perm [0xFFC00001#128, 0x7F800001#128, 0x3F800000#128] := by
  refine ⟨?_, ⟨0x7F800001#128, List.mem_cons_self, by decide⟩, by decide, List.Perm.swap _ _ _⟩
  simp only [nanOperands, List.forall_mem_cons]
  exact ⟨by decide, by decide, by decide, nofun⟩

theorem witness_ArithmeticNanPath :
    let s := st 0 0 0x3F800000 0x7F800001 0x7FC00000
    CommandOk (.arith .add .f32) s ∧ [operandOf .f32 s.opa, operandOf .f32 s.opb].any (isNaN .f32) = true ∧
      CommandOk (.arith .fma .f32) s ∧
      [operandOf .f32 s.opa, operandOf .f32 s.opb, operandOf .f32 s.opc].any (isNaN .f32) = true ∧
      CommandOk (.arith .sqrt .f32) (st 0 0 0xFFC00000 0 0) ∧
      [operandOf .f32 (st 0 0 0xFFC00000 0 0).opa].any (isNaN .f32) = true :=
  ⟨commandOk_arith (by decide) (by decide), by decide, commandOk_arith (by decide) (by decide), by decide,
    commandOk_arith (by decide) (by decide), by decide⟩

theorem witness_RoundIntFollowsItsRule : (1 : Nat) ≤ 1 := Nat.le_refl 1

/-- Every mode and sign: `2^128` rounds to the exponent 128, above `emax`. -/
theorem witness_OverflowDeliversTheTable :
    ∀ m ∈ [RMode.ne, .minmag, .min, .max, .nmm, .stk], ∀ sign ∈ [false, true],
      0 < 1 ∧ Fmt.f32.emin ≤ unroundedExp 1 128 ∧ Fmt.f32.emax < (roundUnbounded .f32 m sign 1 128 false).Eu := by
  decide +kernel

/-- 1 exactly, and a number between `2^26` and `2^26 + 1` with its sticky. -/
theorem witness_StandsFor :
    StandsFor .f32 1 0 false 1 ∧ StandsFor .f32 (2 ^ 26) 0 true (2 ^ 26 + 1 / 2) := by
  constructor
  · simp [StandsFor]
  · refine ⟨by norm_num, ?_⟩
    have h : Fmt.f32.p + 2 ≤ bitlen (2 ^ 26) := by decide
    simp only [if_true]
    exact ⟨h, by norm_num, by norm_num⟩

theorem witness_DeliveredValueIsTheModesChoice (m : RMode) :
    StandsFor .f32 1 0 false 1 ∧ (roundPack .f32 m 0 false 1 0 false).fl.getLsbD 2 = false := by
  refine ⟨witness_StandsFor.1, ?_⟩
  cases m <;> decide

/-- `2^24 + 1` lies halfway between two neighbours of `F32`: the tie of `NE` (delivering `2^24`, last bit 0), of `NMM`
(delivering `2^24 + 2`) and an inexact value for `STK` (delivering the neighbour whose last bit is 1). -/
theorem witness_DeliveredValueIsTheModesChoice_ties :
    StandsFor .f32 (2 ^ 24 + 1) 0 false (2 ^ 24 + 1) ∧
      (∀ m ∈ [RMode.ne, .nmm, .stk], (roundPack .f32 m 0 false (2 ^ 24 + 1) 0 false).fl.getLsbD 2 = false) ∧
      (roundPack .f32 .ne 0 false (2 ^ 24 + 1) 0 false).res = 0x4B800000#128 ∧
      (roundPack .f32 .nmm 0 false (2 ^ 24 + 1) 0 false).res = 0x4B800001#128 ∧
      (roundPack .f32 .stk 0 false (2 ^ 24 + 1) 0 false).res = 0x4B800001#128 ∧
      isFin .f32 0x4B800000#128 = true ∧ isFin .f32 0x4B800001#128 = true ∧
      valueOf .f32 0x4B800000#128 ≠ valueOf .f32 0x4B800001#128 ∧
      |valueOf .f32 0x4B800001#128 - (2 ^ 24 + 1)| = |valueOf .f32 0x4B800000#128 - (2 ^ 24 + 1)| := by
  have hs0 : signOf .f32 0x4B800000#128 = false := by decide
  have hN0 : intSigOf .f32 0x4B800000#128 = 2 ^ 23 := by decide
  have he0 : intExpOf .f32 0x4B800000#128 = 1 := by decide
  have hs1 : signOf .f32 0x4B800001#128 = false := by decide
  have hN1 : intSigOf .f32 0x4B800001#128 = 2 ^ 23 + 1 := by decide
  have he1 : intExpOf .f32 0x4B800001#128 = 1 := by decide
  refine ⟨by norm_num [StandsFor], by decide +kernel, by decide +kernel, by decide +kernel, by decide +kernel, by decide,
    by decide, ?_, ?_⟩ <;>
    simp only [valueOf, hs0, hN0, he0, hs1, hN1, he1] <;> norm_num

theorem valueOf_one : valueOf .f32 0x3F800000#128 = 1 := by
  have h1 : signOf .f32 0x3F800000#128 = false := by decide
  have h2 : intSigOf .f32 0x3F800000#128 = 2 ^ 23 := by decide
  have h3 : intExpOf .f32 0x3F800000#128 = -23 := by decide
  simp only [valueOf, h1, h2, h3]
  norm_num

theorem valueOf_two : valueOf .f32 0x40000000#128 = 2 := by
  have h1 : signOf .f32 0x40000000#128 = false := by decide
  have h2 : intSigOf .f32 0x40000000#128 = 2 ^ 23 := by decide
  have h3 : intExpOf .f32 0x40000000#128 = -22 := by decide
  simp only [valueOf, h1, h2, h3]
  norm_num

theorem valueOf_neg_one : valueOf .f32 0xBF800000#128 = -1 := by
  have h1 : signOf .f32 0xBF800000#128 = true := by decide
  have h2 : intSigOf .f32 0xBF800000#128 = 2 ^ 23 := by decide
  have h3 : intExpOf .f32 0xBF800000#128 = -23 := by decide
  simp only [valueOf, h1, h2, h3]
  norm_num

theorem witness_RoundingIsIdempotent :
    (0x3F800000#128).toNat < 2 ^ Fmt.f32.k ∧ isFin .f32 0x3F800000#128 = true ∧ 0 < 1 ∧
      ((1 : Nat) : ℝ) * 2 ^ (0 : Int) = |valueOf .f32 0x3F800000#128| ∧
      classOf .f32 0x00000001#128 = .subnormal := by
  refine ⟨by decide, by decide, by decide, ?_, by decide⟩
  rw [valueOf_one]
  norm_num

/-- Operands 1.0 and 2.0 for the sum, difference, product and quotient, with the sign of each exact result. -/
theorem witness_finite_operands :
    RMode.ofBits st12.rm = some .ne ∧ operandsFit .f32 st12 = true ∧
      isFin .f32 (operandOf .f32 st12.opa) = true ∧ isFin .f32 (operandOf .f32 st12.opb) = true ∧
      isFin .f32 (operandOf .f32 st12.opc) = true ∧
      operandOf .f32 st12.opa = 0x3F800000#128 ∧ operandOf .f32 st12.opb = 0x40000000#128 ∧
      operandOf .f32 st12.opc = 0x3F800000#128 := by decide

/-- Both clauses for `ADD`, and the nonzero one for `SUB` with a negative difference. -/
theorem witness_AddAndSubRoundTheExactSum :
    ((false = true ↔ (3 : ℝ) < 0) ∧ (3 : ℝ) ≠ 0 ∧
      (3 : ℝ) = valueOf .f32 (operandOf .f32 st12.opa) + valueOf .f32 (operandOf .f32 st12.opb)) ∧
    ((true = true ↔ (-1 : ℝ) < 0) ∧ (-1 : ℝ) ≠ 0 ∧
      (-1 : ℝ) = valueOf .f32 (operandOf .f32 st12.opa) - valueOf .f32 (operandOf .f32 st12.opb)) ∧
    ((false = true ↔ (0 : ℝ) < 0) ∧ (0 : ℝ) = valueOf .f32 0x3F800000#128 + valueOf .f32 0xBF800000#128) := by
  obtain ⟨-, -, -, -, -, ha, hb, -⟩ := witness_finite_operands
  rw [ha, hb, valueOf_one, valueOf_two, valueOf_neg_one]
  norm_num

theorem witness_MulAndDivRoundTheExactResult :
    (2 : ℝ) = valueOf .f32 (operandOf .f32 st12.opa) * valueOf .f32 (operandOf .f32 st12.opb) ∧
      (1 / 2 : ℝ) = valueOf .f32 (operandOf .f32 st12.opa) / valueOf .f32 (operandOf .f32 st12.opb) := by
  obtain ⟨-, -, -, -, -, ha, hb, -⟩ := witness_finite_operands
  rw [ha, hb, valueOf_one, valueOf_two]
  norm_num

/-- The tie 1.0 / 2.0: the even neighbour 0 meets both conditions on `n`. -/
theorem witness_RemIsTheExactIeeeRemainder :
    CommandOk (.arith .rem .f32) st12 ∧
      |valueOf .f32 (operandOf .f32 st12.opa) / valueOf .f32 (operandOf .f32 st12.opb) - ((0 : ℤ) : ℝ)| ≤ 1 / 2 ∧
      Even (0 : ℤ) := by
  obtain ⟨-, -, -, -, -, ha, hb, -⟩ := witness_finite_operands
  refine ⟨commandOk_arith (by decide) (by decide), ?_, by decide⟩
  rw [ha, hb, valueOf_one, valueOf_two]
  norm_num [abs_of_pos]

/-- 2.0 and 1.0: the quotient is the integer 2, and the remainder is 0. -/
theorem witness_RemIsTheExactIeeeRemainder_zero :
    let s := st 0 0 0x40000000 0x3F800000 0
    CommandOk (.arith .rem .f32) s ∧ isFin .f32 (operandOf .f32 s.opa) = true ∧
      isFin .f32 (operandOf .f32 s.opb) = true ∧
      |valueOf .f32 (operandOf .f32 s.opa) / valueOf .f32 (operandOf .f32 s.opb) - ((2 : ℤ) : ℝ)| ≤ 1 / 2 ∧
      (|valueOf .f32 (operandOf .f32 s.opa) / valueOf .f32 (operandOf .f32 s.opb) - ((2 : ℤ) : ℝ)| = 1 / 2 →
        Even (2 : ℤ)) ∧
      valueOf .f32 (operandOf .f32 s.opa) - (2 : ℤ) * valueOf .f32 (operandOf .f32 s.opb) = 0 := by
  intro s
  have ha : operandOf .f32 s.opa = 0x40000000#128 := by decide
  have hb : operandOf .f32 s.opb = 0x3F800000#128 := by decide
  refine ⟨commandOk_arith (by decide) (by decide), by decide, by decide, ?_, fun _ => by decide, ?_⟩ <;>
    rw [ha, hb, valueOf_one, valueOf_two] <;> norm_num

theorem witness_FmaRoundsOnce :
    ((false = true ↔ (3 : ℝ) < 0) ∧ (3 : ℝ) = valueOf .f32 (operandOf .f32 st12.opa) *
        valueOf .f32 (operandOf .f32 st12.opb) + valueOf .f32 (operandOf .f32 st12.opc)) ∧
      (0 : ℝ) = valueOf .f32 0x3F800000#128 * valueOf .f32 0x3F800000#128 + valueOf .f32 0xBF800000#128 := by
  obtain ⟨-, -, -, -, -, ha, hb, hc⟩ := witness_finite_operands
  rw [ha, hb, hc, valueOf_one, valueOf_two, valueOf_neg_one]
  norm_num

/-- The special operands of `F32` in each class the clauses of the four tables name. -/
theorem witness_special_operands :
    operandsFit .f32 (st 0 0 0x7F800000 0x80000000 0xFF800000) = true ∧
      isInf .f32 0x7F800000#128 = true ∧ signOf .f32 0x7F800000#128 = false ∧
      isInf .f32 0xFF800000#128 = true ∧ signOf .f32 0xFF800000#128 = true ∧
      isZero .f32 0x80000000#128 = true ∧ signOf .f32 0x80000000#128 = true ∧
      isZero .f32 0x00000000#128 = true ∧ isFin .f32 0x3F800000#128 = true ∧
      [0x7F800000#128, 0xFF800000#128, 0x80000000#128, 0x00000000#128, 0x3F800000#128].all
        (fun x => !isNaN .f32 x) = true := by decide

/-- Every combination of those classes, in `NE`: no operand is refused and none is a NaN, so each clause of the tables of
`ADD`, `SUB`, `MUL`, `DIV`, `REM` and `FMA` is met by some of these states. -/
theorem witness_every_combination_of_specials :
    let xs := [0x7F800000, 0xFF800000, 0x80000000, 0x00000000, 0x3F800000]
    ∀ a ∈ xs, ∀ b ∈ xs, ∀ c ∈ xs, operandsFit .f32 (st 0 0 a b c) = true ∧
      [(st 0 0 a b c).opa, (st 0 0 a b c).opb, (st 0 0 a b c).opc].all (fun r => !isNaN .f32 (operandOf .f32 r)) := by
  decide +kernel

/-- `SUB` inverts the second operand's sign bit: of `-0` it is `+0`. -/
theorem witness_AddAndSubOfInfinitiesAndZeros :
    let s := st 0 0 0x7F800000 0x80000000 0
    RMode.ofBits s.rm = some .ne ∧ isNaN .f32 (operandOf .f32 s.opa) = false ∧
      isNaN .f32 (operandOf .f32 s.opb) = false ∧ false = !signOf .f32 (operandOf .f32 s.opb) ∧
      0#128 = operandOf .f32 s.opb ^^^ BitVec.ofNat 128 (2 ^ (Fmt.f32.k - 1)) := by decide

/-- `CommandOk` of the multiplication, division and remainder tables, and the operands of the square root's clauses. -/
theorem witness_tables_of_specials :
    let s := st 0 0 0x7F800000 0x80000000 0xFF800000
    CommandOk (.arith .mul .f32) s ∧ CommandOk (.arith .div .f32) s ∧ CommandOk (.arith .rem .f32) s ∧
      OperandOk .f32 s.opa ∧ OperandOk .f32 s.opb ∧ OperandOk .f32 s.opc :=
  ⟨commandOk_arith (by decide) (by decide), commandOk_arith (by decide) (by decide),
    commandOk_arith (by decide) (by decide), operandOk_of_fit (by decide)⟩

theorem witness_SqrtRoundsTheRoot :
    RMode.ofBits st12.rm = some .ne ∧ isFin .f32 (operandOf .f32 st12.opb) = true ∧
      signOf .f32 (operandOf .f32 st12.opb) = false ∧ isZero .f32 0x80000000#128 = true ∧
      isInf .f32 0x7F800000#128 = true ∧ signOf .f32 0xBF800000#128 = true ∧ isZero .f32 0xBF800000#128 = false := by
  decide

theorem witness_AddMulAndFmaAreSymmetric :
    Instr.addF32.toCmd = .arith .add .f32 ∧ Instr.mulF64.toCmd = .arith .mul .f64 ∧
      Instr.fmaX80.toCmd = .arith .fma .x80 ∧ isNext (exec .addF32 st12) = true := by decide

theorem witness_IntToFloatRoundsTheInteger :
    RMode.ofBits st12.rm = some .ne ∧ st12.opa.written = true ∧ (0xFFFFFFFF : Int) - 2 ^ IntType.i32.n ≠ 0 ∧
      2 ^ (IntType.i32.n - 1) ≤ (0xFFFFFFFF : Nat) := by decide

/-- The range edges of `I32` in `F64`, both sides: `-2^31 - 1` and `2^31` are out, `-2^31` and `2^31 - 1` are in; a NaN and
both infinities. -/
theorem witness_FloatToIntRoundsThenTestsTheRange :
    [0x7FF8000000000000#128, 0x7FF0000000000000, 0xFFF0000000000000, 0xC1E0000000200000, 0x41E0000000000000,
      0xC1E0000000000000, 0x41DFFFFFFFC00000].map (fun x => (isNaN .f64 x, isInf .f64 x, signOf .f64 x, isFin .f64 x)) =
      [(true, false, false, false), (false, true, false, false), (false, true, true, false),
        (false, false, true, true), (false, false, false, true), (false, false, true, true),
        (false, false, false, true)] ∧
      Instr.f2iF64I32.toCmd = .f2i .f64 .i32 ∧ Instr.f2iRmmF64I32.toCmd = .f2iRmm .f64 .i32 ∧
      IntType.i32.lo = -2147483648 ∧ IntType.i32.hi = 2147483647 := by decide

theorem witness_conversions :
    CommandOk (.f2f .f32 .f64) st12 ∧ Fmt.f32.p < Fmt.f64.p ∧ isNaN .f32 (operandOf .f32 st12.opa) = false ∧
      CommandOk (.f2f .f32 .f64) (st 0 0 0x7F800001 0 0) ∧
      isNaN .f32 (operandOf .f32 (st 0 0 0x7F800001 0 0).opa) = true ∧ OperandOk .f64 (st 0 0 0x3FF0000000000000 0 0).opa :=
  ⟨commandOk_f2f (by decide) (by decide), by decide, by decide, commandOk_f2f (by decide) (by decide), by decide,
    rfl, by decide⟩

theorem witness_WideningThenNarrowingIsTheIdentity :
    Instr.f2fF32F64.toCmd = .f2f .f32 .f64 ∧ Instr.f2fF64F32.toCmd = .f2f .f64 .f32 ∧ Fmt.f32.p < Fmt.f64.p ∧
      isNext (exec .f2fF32F64 (st 0 0 0x00000001 0 0)) = true ∧ classOf .f32 0x00000001#128 = .subnormal ∧
      isNext (exec .f2fF32F64 (st 0 0 0x7F800001 0 0)) = true := by decide +kernel

theorem witness_IntegerRoundTripIsTheIdentity :
    Instr.i2fI32F32.toCmd = .i2f .i32 .f32 ∧ Instr.f2iRmmF32I32.toCmd = .f2iRmm .f32 .i32 ∧
      bitlen (intValue .i32 (st 0 0 0xFF000001 0 0).opa.val).natAbs ≤ Fmt.f32.p ∧
      isNext (exec .i2fI32F32 (st 0 0 0xFF000001 0 0)) = true := by decide +kernel

theorem witness_ComparesOrderTheExtendedValues :
    Instr.ltsF32.toCmd = .cmp .lts .f32 ∧ operandsFit .f32 st12 = true ∧
      isNaN .f32 (operandOf .f32 st12.opa) = false ∧ isNaN .f32 (operandOf .f32 st12.opb) = false := by decide

/-- `holds` for 1.0 and 2.0: true of `<`, false of `=`. -/
theorem witness_ComparesOrderTheExtendedValues_holds :
    (true = true ↔ extValueOf .f32 (operandOf .f32 st12.opa) < extValueOf .f32 (operandOf .f32 st12.opb)) ∧
      (false = true ↔ extValueOf .f32 (operandOf .f32 st12.opa) = extValueOf .f32 (operandOf .f32 st12.opb)) := by
  obtain ⟨-, -, -, -, -, ha, hb, -⟩ := witness_finite_operands
  have h1 : isInf .f32 0x3F800000#128 = false := by decide
  have h2 : isInf .f32 0x40000000#128 = false := by decide
  rw [ha, hb]
  simp only [extValueOf, h1, h2, valueOf_one, valueOf_two, Bool.false_eq_true, if_false, EReal.coe_lt_coe_iff,
    EReal.coe_eq_coe_iff]
  norm_num

theorem witness_ComparesWithNansAreFalse :
    operandsFit .f32 (st 0 0 0x3F800000 0x7FC00000 0) = true ∧
      isNaN .f32 (operandOf .f32 (st 0 0 0x3F800000 0x7FC00000 0).opb) = true := by decide

theorem witness_IssnanTestsTheQuietBit :
    Instr.issnanX80.toCmd = .issnan .x80 ∧ operandsFit .x80 (st 0 0 0x7FFF8000000000000001 0 0) = true ∧
      classOf .x80 (operandOf .x80 (st 0 0 0x7FFF0000000000000001 0 0).opa) = .nonCanonical := by decide

theorem witness_ScaledMultipliesTheRecord :
    let s := withRecord .f32 128 (2 ^ 126) 0xFFFFFF02
    s.opa.written = true ∧ RecordOk .f32 s ∧ s.raw.Wf :=
  ⟨rfl, ⟨rfl, rfl, by decide +kernel, by decide +kernel⟩, fun _ => by decide +kernel⟩

/-- One exponent below `emin` and one above `emax`. -/
theorem witness_ScaledRefusals :
    [0xFFFFFF01, 0xFFFFFFFF].map (fun sc => scaledExp (withRecord .f32 129 (2 ^ 126) sc).raw
      (scaleOf (withRecord .f32 129 (2 ^ 126) sc).opa.val)) = [-126, 128] ∧
      scaledExp (withRecord .f32 129 (2 ^ 126) 0xFFFFFF00).raw
        (scaleOf (withRecord .f32 129 (2 ^ 126) 0xFFFFFF00).opa.val) = -127 ∧
      Fmt.f32.emin = -126 ∧ Fmt.f32.emax = 127 := by decide +kernel

theorem witness_ScaledPurity :
    Instr.addF32.toCmd.writesRecord = true ∧ Instr.addF32.toCmd.resultFmt = some .f32 ∧
      Instr.scaledF32.toCmd = .scaled .f32 ∧ st12.flags = 0#7 ∧ isNext (exec .addF32 st12) = true ∧
      afterAdd.raw.valid = true ∧ afterAdd.flags &&& 0x44#7 = 0#7 ∧ (0#128 : Word).toNat % 2 ^ 32 = 0 ∧
      isNext (exec .scaledF32 { afterAdd with opa := ⟨0, true⟩ }) = true ∧
      (0#128 : Word).toNat % 2 ^ 32 = (2 ^ 32 : Nat) % 2 ^ 32 := by decide

end Sys2Proof.Tests
end

/-! PROOFS. The four formats: the sizes that belong together (R80), the fields of a pattern read from its magnitude, which
patterns are canonical (R85), and the bounds of an operand's significand and exponent (R84). -/

namespace Sys2Proof

theorem Fmt.p_eq (F : Fmt) : F.p = F.t + 1 := by cases F <;> rfl

theorem Fmt.k_eq (F : Fmt) : F.k = F.sigW + F.w + 1 := by cases F <;> rfl

theorem Fmt.k_le (F : Fmt) : F.k ≤ 128 := by cases F <;> decide

theorem Fmt.t_le_sigW (F : Fmt) : F.t ≤ F.sigW := by cases F <;> decide

theorem Fmt.p_le (F : Fmt) : F.p ≤ 113 := by cases F <;> decide

theorem Fmt.two_pow_w (F : Fmt) : 2 ^ F.w = 2 * F.bias + 2 := by cases F <;> rfl

theorem IntType.n_le (T : IntType) : T.n ≤ 128 := by cases T <;> decide

namespace Machine

variable {F : Fmt} {x y : Word}

/-- A canonical pattern of format `F`, its bits above `k` zero (R51, R85): what an operand and a float result are. -/
def IsPattern (F : Fmt) (x : Word) : Prop := x.toNat < 2 ^ F.k ∧ classOf F x ≠ .nonCanonical

theorem toNat_ofNat_of_lt {k n : Nat} (hk : k ≤ 128) (h : n < 2 ^ k) : (BitVec.ofNat 128 n).toNat = n := by
  rw [BitVec.toNat_ofNat, Nat.mod_eq_of_lt (h.trans_le (Nat.pow_le_pow_right (by decide) hk))]

theorem lowBits_lt {k : Nat} (hk : k ≤ 128) (v : Word) : (lowBits k v).toNat < 2 ^ k := by
  have h : v.toNat % 2 ^ k < 2 ^ k := Nat.mod_lt _ (Nat.two_pow_pos k)
  rwa [lowBits, toNat_ofNat_of_lt hk h]

/-- What a command takes from a register is a pattern. -/
theorem isPattern_lowBits {v : Word} (h : classOf F (lowBits F.k v) ≠ .nonCanonical) : IsPattern F (lowBits F.k v) :=
  ⟨lowBits_lt F.k_le v, h⟩

/-! ### Fields from the magnitude -/

theorem bexpOf_eq_mag (F : Fmt) (x : Word) : bexpOf F x = magOf F x / 2 ^ F.sigW := by
  rw [bexpOf, magOf, F.k_eq, Nat.add_sub_cancel, pow_add, Nat.mod_mul_right_div_self]

theorem sigOf_eq_mag (F : Fmt) (x : Word) : sigOf F x = magOf F x % 2 ^ F.sigW := by
  rw [sigOf, magOf, Nat.mod_mod_of_dvd _ (pow_dvd_pow 2 (by have := F.k_eq; omega))]

theorem fracOf_eq_mag (F : Fmt) (x : Word) : fracOf F x = magOf F x % 2 ^ F.t := by
  rw [fracOf, magOf, Nat.mod_mod_of_dvd _ (pow_dvd_pow 2 (by have := F.k_eq; have := F.t_le_sigW; omega))]

/-- Patterns that differ in the sign bit only have one class. -/
theorem classOf_congr_mag (h : magOf F x = magOf F y) : classOf F x = classOf F y := by
  have hX : F = .x80 → classX80 x = classX80 y := by
    rintro rfl
    simp only [classX80, bexpOf_eq_mag, sigOf_eq_mag, fracOf_eq_mag, h]
  have hH : classHidden F x = classHidden F y := by
    simp only [classHidden, bexpOf_eq_mag, fracOf_eq_mag, h]
  cases F
  case x80 => exact hX rfl
  all_goals exact hH

theorem magOf_flipSign (F : Fmt) (x : Word) : magOf F (flipSign F x) = magOf F x := by
  have hk : 2 ^ (F.k - 1) < 2 ^ 128 := Nat.pow_lt_pow_right (by decide) (by have := F.k_le; have := F.k_pos; omega)
  simp only [magOf, flipSign, BitVec.toNat_xor, BitVec.toNat_ofNat, Nat.mod_eq_of_lt hk, Nat.xor_mod_two_pow,
    Nat.mod_self, Nat.xor_zero]

theorem classOf_flipSign (F : Fmt) (x : Word) : classOf F (flipSign F x) = classOf F x :=
  classOf_congr_mag (magOf_flipSign F x)

theorem isPattern_flipSign (h : IsPattern F x) : IsPattern F (flipSign F x) := by
  have hlt : 2 ^ (F.k - 1) < 2 ^ F.k := Nat.pow_lt_pow_right (by decide) (by have := F.k_pos; omega)
  refine ⟨?_, classOf_flipSign F x ▸ h.2⟩
  rw [flipSign, BitVec.toNat_xor, toNat_ofNat_of_lt F.k_le hlt]
  exact Nat.xor_lt_two_pow h.1 hlt

/-! ### Canonical patterns -/

theorem classHidden_ne_nonCanonical (F : Fmt) (x : Word) : classHidden F x ≠ .nonCanonical := by
  unfold classHidden
  split_ifs <;> decide

theorem testBit_63_mod (n : Nat) : (n % 2 ^ 64).testBit 63 = n.testBit 63 := by
  rw [Nat.testBit_mod_two_pow, decide_eq_true (by decide : 63 < 64), Bool.true_and]

/-- Only `X80` has non-canonical patterns: those whose integer bit is not what the exponent field asks for (R85). -/
theorem classOf_ne_nonCanonical_iff :
    classOf F x ≠ .nonCanonical ↔ (F = .x80 → (x.toNat.testBit 63 = true ↔ bexpOf .x80 x ≠ 0)) := by
  have hX : classX80 x ≠ .nonCanonical ↔ (x.toNat.testBit 63 = true ↔ bexpOf .x80 x ≠ 0) := by
    have hlead : (sigOf .x80 x).testBit 63 = x.toNat.testBit 63 := testBit_63_mod x.toNat
    have hzero : sigOf .x80 x = 0 → x.toNat.testBit 63 = false := fun h => by
      rw [← hlead, h, Nat.zero_testBit]
    unfold classX80
    rw [hlead]
    split_ifs <;> simp_all
  cases F
  case x80 => simpa [classOf, Fmt.explicitLead] using hX
  all_goals exact iff_of_true (classHidden_ne_nonCanonical _ x) nofun

theorem toNat_pack (F : Fmt) (s : Bool) (be f : Nat) :
    (pack F s be f).toNat =
      ((if s then 2 ^ F.w else 0) + be % 2 ^ F.w) * 2 ^ F.sigW + f % 2 ^ F.sigW ∧
      (pack F s be f).toNat < 2 ^ F.k := by
  have hk : F.k - 1 = F.w + F.sigW := by have := F.k_eq; omega
  have hf : f % 2 ^ F.sigW < 2 ^ F.sigW := Nat.mod_lt _ (Nat.two_pow_pos _)
  have hbe : be % 2 ^ F.w < 2 ^ F.w := Nat.mod_lt _ (Nat.two_pow_pos _)
  have hsum : (if s then 2 ^ (F.k - 1) else 0) + be % 2 ^ F.w * 2 ^ F.sigW + f % 2 ^ F.sigW =
      ((if s then 2 ^ F.w else 0) + be % 2 ^ F.w) * 2 ^ F.sigW + f % 2 ^ F.sigW := by
    rw [hk, pow_add, add_mul]
    cases s <;> simp
  have hlt : ((if s then 2 ^ F.w else 0) + be % 2 ^ F.w) * 2 ^ F.sigW + f % 2 ^ F.sigW < 2 ^ F.k := by
    have h1 : (if s then 2 ^ F.w else 0) + be % 2 ^ F.w + 1 ≤ 2 ^ (F.w + 1) := by
      rw [pow_succ]; split <;> omega
    calc _ < ((if s then 2 ^ F.w else 0) + be % 2 ^ F.w) * 2 ^ F.sigW + 2 ^ F.sigW := by omega
      _ = ((if s then 2 ^ F.w else 0) + be % 2 ^ F.w + 1) * 2 ^ F.sigW := by ring
      _ ≤ 2 ^ (F.w + 1) * 2 ^ F.sigW := Nat.mul_le_mul_right _ h1
      _ = 2 ^ F.k := by rw [← pow_add, F.k_eq]; congr 1; omega
  rw [pack, hsum, toNat_ofNat_of_lt F.k_le hlt]
  exact ⟨rfl, hlt⟩

theorem bexpOf_pack (F : Fmt) (s : Bool) (be f : Nat) : bexpOf F (pack F s be f) = be % 2 ^ F.w := by
  have hf : f % 2 ^ F.sigW < 2 ^ F.sigW := Nat.mod_lt _ (Nat.two_pow_pos _)
  rw [bexpOf, (toNat_pack F s be f).1, mul_comm, Nat.mul_add_div (Nat.two_pow_pos _), Nat.div_eq_of_lt hf, add_zero]
  cases s <;> simp

theorem sigOf_pack (F : Fmt) (s : Bool) (be f : Nat) : sigOf F (pack F s be f) = f % 2 ^ F.sigW := by
  rw [sigOf, (toNat_pack F s be f).1, Nat.mul_add_mod_self_right, Nat.mod_mod]

/-- Packed fields are a pattern; in `X80` when the integer bit stored is what the exponent field asks for (R85, R87). -/
theorem isPattern_pack {s : Bool} {be f : Nat} (h : F = .x80 → (f.testBit 63 = true ↔ be % 2 ^ 15 ≠ 0)) :
    IsPattern F (pack F s be f) := by
  refine ⟨(toNat_pack F s be f).2, classOf_ne_nonCanonical_iff.mpr ?_⟩
  rintro rfl
  have hsig : (pack .x80 s be f).toNat % 2 ^ 64 = f % 2 ^ 64 := sigOf_pack .x80 s be f
  rw [bexpOf_pack, ← testBit_63_mod, hsig, testBit_63_mod]
  exact h rfl

theorem isPattern_zeroOf (F : Fmt) (s : Bool) : IsPattern F (zeroOf F s) :=
  isPattern_pack (by rintro rfl; decide)

theorem isPattern_infOf (F : Fmt) (s : Bool) : IsPattern F (infOf F s) :=
  isPattern_pack (by rintro rfl; decide)

theorem isPattern_maxFiniteOf (F : Fmt) (s : Bool) : IsPattern F (maxFiniteOf F s) :=
  isPattern_pack (by rintro rfl; decide)

theorem isPattern_defaultNaN (F : Fmt) : IsPattern F (defaultNaN F) :=
  isPattern_pack (by rintro rfl; decide)

theorem testBit_63_of_normalised {q : Nat} (h1 : 2 ^ 63 ≤ q) (h2 : q < 2 ^ 64) : q.testBit 63 = true := by
  rw [Nat.testBit_eq_decide_div_mod_eq, decide_eq_true_eq]
  omega

/-- A significand with its leading bit set, under a biased exponent that is neither 0 nor all ones. -/
theorem isPattern_packNormal {s : Bool} {be q : Nat}
    (h : F = .x80 → (1 ≤ be ∧ be < 2 ^ 15) ∧ 2 ^ 63 ≤ q ∧ q < 2 ^ 64) : IsPattern F (packNormal F s be q) := by
  refine isPattern_pack ?_
  rintro rfl
  obtain ⟨⟨hbe1, hbe2⟩, hq1, hq2⟩ := h rfl
  simp only [Fmt.explicitLead, if_true, testBit_63_of_normalised hq1 hq2, true_iff]
  omega

/-- A significand without a leading bit, under the exponent field 0. -/
theorem isPattern_packSubnormal {s : Bool} {q : Nat} (h : F = .x80 → q < 2 ^ 63) : IsPattern F (pack F s 0 q) := by
  refine isPattern_pack fun hF => ?_
  rw [Nat.testBit_lt_two_pow (h hF)]
  decide

/-! ### NaNs -/

/-- Quieting a NaN changes neither its exponent field nor its integer bit (R89). -/
theorem isPattern_quiet (h : IsPattern F x) : IsPattern F (quiet F x) := by
  have hlt : 2 ^ (F.t - 1) < 2 ^ F.k :=
    Nat.pow_lt_pow_right (by decide) (by have := F.k_eq; have := F.t_le_sigW; omega)
  have hq : (quiet F x).toNat = x.toNat ||| 2 ^ (F.t - 1) := by
    rw [quiet, BitVec.toNat_or, toNat_ofNat_of_lt F.k_le hlt]
  refine ⟨hq ▸ Nat.or_lt_two_pow h.1 hlt, classOf_ne_nonCanonical_iff.mpr ?_⟩
  rintro rfl
  have hlead : (quiet .x80 x).toNat.testBit 63 = x.toNat.testBit 63 := by
    rw [hq, Nat.testBit_or, Nat.testBit_two_pow_of_ne (by decide), Bool.or_false]
  have hbexp : bexpOf .x80 (quiet .x80 x) = bexpOf .x80 x := by
    have h0 : (2 ^ (Fmt.x80.t - 1)) >>> Fmt.x80.sigW = 0 := by decide
    rw [bexpOf, bexpOf, hq, ← Nat.shiftRight_eq_div_pow, Nat.shiftRight_or_distrib, h0, Nat.or_zero,
      Nat.shiftRight_eq_div_pow]
  rw [hlead, hbexp]
  exact classOf_ne_nonCanonical_iff.mp h.2 rfl

theorem exists_magOf_eq_maxMag {ys : List Word} (h : ys ≠ []) : ∃ y ∈ ys, magOf F y = maxMag F ys := by
  induction ys with
  | nil => exact absurd rfl h
  | cons y ys ih =>
    have hcons : maxMag F (y :: ys) = max (magOf F y) (maxMag F ys) := rfl
    by_cases hle : maxMag F ys ≤ magOf F y
    · exact ⟨y, List.mem_cons_self, by rw [hcons, max_eq_left hle]⟩
    · have hne : ys ≠ [] := by
        rintro rfl
        exact hle (Nat.zero_le _)
      obtain ⟨z, hz, hmag⟩ := ih hne
      exact ⟨z, List.mem_cons_of_mem y hz, by rw [hcons, max_eq_right (by omega), hmag]⟩

/-- A word that has a pattern's magnitude and nothing above the sign bit is a pattern. -/
theorem isPattern_of_mag {n : Nat} (hy : IsPattern F y) (h : n = magOf F y ∨ n = 2 ^ (F.k - 1) + magOf F y) :
    IsPattern F (BitVec.ofNat 128 n) := by
  have hm : magOf F y < 2 ^ (F.k - 1) := Nat.mod_lt _ (Nat.two_pow_pos _)
  have hk : 2 ^ F.k = 2 ^ (F.k - 1) + 2 ^ (F.k - 1) := by
    rw [← two_mul, ← pow_succ', Nat.sub_add_cancel F.k_pos]
  have hn : n < 2 ^ F.k := by omega
  have hmag : magOf F (BitVec.ofNat 128 n) = magOf F y := by
    rw [magOf, toNat_ofNat_of_lt F.k_le hn]
    obtain rfl | rfl := h
    · exact Nat.mod_eq_of_lt hm
    · rw [Nat.add_mod_left, Nat.mod_eq_of_lt hm]
  refine ⟨?_, classOf_congr_mag hmag ▸ hy.2⟩
  rwa [toNat_ofNat_of_lt F.k_le hn]

/-- The NaN selected from operands of which one is a NaN is a pattern (R90). -/
theorem isPattern_nanSelect {xs : List Word} (hx : ∀ x ∈ xs, IsPattern F x) (hnan : xs.any (isNaN F) = true) :
    IsPattern F (nanSelect F xs) := by
  obtain ⟨x, hmem, hxnan⟩ := List.any_eq_true.mp hnan
  have hne : nanCands F xs ≠ [] :=
    List.ne_nil_of_mem (List.mem_map_of_mem (List.mem_filter.mpr ⟨hmem, hxnan⟩))
  obtain ⟨y, hy, hmag⟩ := exists_magOf_eq_maxMag (F := F) hne
  obtain ⟨z, hz, rfl⟩ := List.mem_map.mp hy
  have hpat : IsPattern F (quiet F z) := isPattern_quiet (hx z (List.mem_filter.mp hz).1)
  simp only [nanSelect, ← hmag]
  split
  · exact isPattern_of_mag hpat (.inl rfl)
  · exact isPattern_of_mag hpat (.inr rfl)

/-! ### Significands and exponents of operands -/

theorem intSigOf_lt (F : Fmt) (x : Word) : intSigOf F x < 2 ^ F.p := by
  have hf : fracOf F x < 2 ^ F.t := Nat.mod_lt _ (Nat.two_pow_pos _)
  have hp : 2 ^ F.p = 2 ^ F.t + 2 ^ F.t := by rw [F.p_eq, pow_succ]; omega
  unfold intSigOf
  split <;> omega

theorem intSigOf_lt_two_pow_113 (F : Fmt) (x : Word) : intSigOf F x < 2 ^ 113 :=
  (intSigOf_lt F x).trans_le (Nat.pow_le_pow_right (by decide) F.p_le)

theorem natAbs_signedSig (F : Fmt) (x : Word) : (signedSig F x).natAbs = intSigOf F x := by
  unfold signedSig
  split <;> simp

/-- A canonical pattern that is no zero has a significand. -/
theorem intSigOf_pos (hc : classOf F x ≠ .nonCanonical) (hz : isZero F x = false) : 0 < intSigOf F x := by
  by_contra hpos
  have h0 : bexpOf F x = 0 ∧ fracOf F x = 0 := by
    have := Nat.two_pow_pos F.t
    unfold intSigOf at hpos
    split at hpos <;> omega
  have hsig : F = .x80 → sigOf .x80 x = 0 := by
    rintro rfl
    have hlead : ¬x.toNat.testBit 63 = true := by
      simpa [h0.1] using classOf_ne_nonCanonical_iff.mp hc rfl
    have hbit : x.toNat / 2 ^ 63 % 2 = 0 := by
      rw [Nat.testBit_eq_decide_div_mod_eq, decide_eq_true_eq] at hlead
      omega
    have hfrac : x.toNat % 2 ^ 63 = 0 := h0.2
    rw [sigOf, show Fmt.x80.sigW = 63 + 1 from rfl, Nat.mod_pow_succ, hfrac, hbit]
  have hzero : classOf F x = .zero := by
    cases F <;> simp [classOf, Fmt.explicitLead, classHidden, classX80, h0, hsig]
  simp [isZero, hzero] at hz

/-- "At most a few times 16494 in magnitude" (D15): the exponents of operands, of every format and class. -/
theorem intExpOf_bounds (F : Fmt) (x : Word) : -16494 ≤ intExpOf F x ∧ intExpOf F x ≤ 16321 := by
  have hw : bexpOf F x < 2 ^ F.w := Nat.mod_lt _ (Nat.two_pow_pos _)
  unfold intExpOf
  cases F <;> simp only [Fmt.w, Fmt.emin, Fmt.bias, Fmt.t] at * <;> split <;> omega

end Machine
end Sys2Proof

/-! PROOFS. What the rounding pass leaves of any exact magnitude `N * 2^e`, `N > 0`: a normalised record of bounded exponent
(R103, R105) and a canonical pattern (R106 to R108). -/

namespace Sys2Proof.Machine

variable {F : Fmt} {m : RMode} {sign st : Bool} {tp : BitVec 1} {N L : Nat} {e sh : Int}

theorem bitlen_le_of_lt (h : N < 2 ^ L) : bitlen N ≤ L := by
  by_cases hN : N = 0
  · simp [bitlen, hN]
  · have := (Nat.pow_lt_pow_iff_right (by decide : 1 < 2)).mp
      ((two_pow_bitlen_le (Nat.pos_of_ne_zero hN)).trans_lt h)
    omega

theorem le_unroundedExp (hN : 0 < N) : e ≤ unroundedExp N e := by
  have := bitlen_pos hN
  unfold unroundedExp
  omega

theorem unroundedExp_lt (h : N < 2 ^ L) : unroundedExp N e < e + L := by
  have := bitlen_le_of_lt h
  unfold unroundedExp
  omega

/-! ### The kept part of a cut -/

theorem cutAt_q_lt (h : N < 2 ^ L) (hsh : sh ≤ L) : (cutAt N sh st).q < 2 ^ (L - sh).toNat := by
  by_cases hpos : sh ≤ 0
  · rw [cutAt_of_nonpos st hpos, show ((L : Int) - sh).toNat = L + (-sh).toNat by omega, pow_add]
    exact Nat.mul_lt_mul_of_pos_right h (Nat.two_pow_pos _)
  · rw [cutAt_q_of_pos st (by omega), Nat.div_lt_iff_lt_mul (Nat.two_pow_pos _), ← pow_add,
      show ((L : Int) - sh).toNat + sh.toNat = L by omega]
    exact h

theorem le_cutAt_q (h : 2 ^ L ≤ N) (hsh : sh ≤ L) : 2 ^ (L - sh).toNat ≤ (cutAt N sh st).q := by
  by_cases hpos : sh ≤ 0
  · rw [cutAt_of_nonpos st hpos, show ((L : Int) - sh).toNat = L + (-sh).toNat by omega, pow_add]
    exact Nat.mul_le_mul_right _ h
  · rw [cutAt_q_of_pos st (by omega), Nat.le_div_iff_mul_le (Nat.two_pow_pos _), ← pow_add,
      show ((L : Int) - sh).toNat + sh.toNat = L by omega]
    exact h

theorem le_roundInt_q (m : RMode) (sign : Bool) (c : Cut) : c.q ≤ (roundInt m sign c).q := by
  rw [roundInt_q]
  omega

theorem roundInt_q_le (m : RMode) (sign : Bool) (c : Cut) : (roundInt m sign c).q ≤ c.q + 1 := by
  rw [roundInt_q]
  split <;> omega

/-! ### The unbounded rounding and its record -/

/-- The rounded significand has exactly `p` bits (R103). -/
theorem roundUnbounded_qu_bounds (hN : 0 < N) :
    2 ^ (F.p - 1) ≤ (roundUnbounded F m sign N e st).qu ∧ (roundUnbounded F m sign N e st).qu < 2 ^ F.p := by
  have hp := F.p_eq
  have hb := bitlen_pos hN
  have hlt : (cutAt N ((bitlen N : Int) - F.p) st).q < 2 ^ F.p := by
    have := cutAt_q_lt (st := st) (lt_two_pow_bitlen N) (sh := (bitlen N : Int) - F.p) (by omega)
    rwa [show ((bitlen N : Int) - ((bitlen N : Int) - F.p)).toNat = F.p by omega] at this
  have hle : 2 ^ (F.p - 1) ≤ (cutAt N ((bitlen N : Int) - F.p) st).q := by
    have := le_cutAt_q (st := st) (two_pow_bitlen_le hN) (sh := (bitlen N : Int) - F.p) (by omega)
    rwa [show (((bitlen N - 1 : Nat) : Int) - ((bitlen N : Int) - F.p)).toNat = F.p - 1 by omega] at this
  have h1 := le_roundInt_q m sign (cutAt N ((bitlen N : Int) - F.p) st)
  have h2 := roundInt_q_le m sign (cutAt N ((bitlen N : Int) - F.p) st)
  unfold roundUnbounded
  dsimp only
  split
  · exact ⟨le_rfl, Nat.pow_lt_pow_right (by decide) (by omega)⟩
  · exact ⟨hle.trans h1, by dsimp only; omega⟩

/-- Rounding moves the exponent up by one or not at all (R103). -/
theorem roundUnbounded_Eu_bounds :
    unroundedExp N e ≤ (roundUnbounded F m sign N e st).Eu ∧
      (roundUnbounded F m sign N e st).Eu ≤ unroundedExp N e + 1 := by
  unfold roundUnbounded
  dsimp only
  split <;> dsimp only <;> omega

/-- The record of a significand of `p` bits and an exponent in the bound is well formed (R28, R105). -/
theorem recordOf_wf {u : Unbounded} {tiny : Bool} (h1 : 2 ^ (F.p - 1) ≤ u.qu) (h2 : u.qu < 2 ^ F.p)
    (hlo : -65976 ≤ u.Eu) (hhi : u.Eu ≤ 65976) : (recordOf F sign u tiny).Wf := by
  intro _
  have hp := F.p_eq
  have hp' := F.p_le
  have hlt : u.qu * 2 ^ (127 - F.p) < 2 ^ 127 := by
    calc u.qu * 2 ^ (127 - F.p) < 2 ^ F.p * 2 ^ (127 - F.p) := Nat.mul_lt_mul_of_pos_right h2 (Nat.two_pow_pos _)
      _ = 2 ^ 127 := by rw [← pow_add]; congr 1; omega
  have hge : 2 ^ 126 ≤ u.qu * 2 ^ (127 - F.p) := by
    calc 2 ^ 126 = 2 ^ (F.p - 1) * 2 ^ (127 - F.p) := by rw [← pow_add]; congr 1; omega
      _ ≤ u.qu * 2 ^ (127 - F.p) := Nat.mul_le_mul_right _ h1
  have hexp : (BitVec.ofInt 32 u.Eu).toInt = u.Eu := by
    rw [BitVec.toInt_ofInt, Int.bmod_eq_of_le] <;> omega
  simp only [recordOf, toNat_ofNat_of_lt (by decide) hlt, hexp]
  exact ⟨hge, hlt, Nat.mul_mod_left _ _, hlo, hhi⟩

/-! ### Delivery -/

/-- The subnormal rounding of a magnitude below `2^emin` has at most `p - 1` bits, or carries into `2^(p-1)` (R108). -/
theorem subnormal_q_le (hE : unroundedExp N e < F.emin) :
    (roundInt m sign (cutAt N (F.emin - F.p + 1 - e) st)).q ≤ 2 ^ (F.p - 1) := by
  have hp := F.p_eq
  have hlen : (bitlen N : Int) ≤ F.emin - e := by
    unfold unroundedExp at hE
    omega
  have hN : N < 2 ^ (F.emin - e).toNat :=
    (lt_two_pow_bitlen N).trans_le (Nat.pow_le_pow_right (by decide) (by omega))
  have hcut := cutAt_q_lt (st := st) hN (sh := F.emin - F.p + 1 - e) (by omega)
  rw [show (((F.emin - e).toNat : Int) - (F.emin - F.p + 1 - e)).toNat = F.p - 1 by omega] at hcut
  have := roundInt_q_le m sign (cutAt N (F.emin - F.p + 1 - e) st)
  omega

theorem isPattern_deliverOverflow : IsPattern F (deliverOverflow F m sign).res := by
  unfold deliverOverflow
  dsimp only
  split
  · exact isPattern_infOf F sign
  · exact isPattern_maxFiniteOf F sign

theorem isPattern_deliverNormal (hN : 0 < N) (hlo : F.emin ≤ unroundedExp N e)
    (hhi : (roundUnbounded F m sign N e st).Eu ≤ F.emax) :
    IsPattern F (deliverNormal F sign (roundUnbounded F m sign N e st)).res := by
  refine isPattern_packNormal ?_
  rintro rfl
  have hE := (roundUnbounded_Eu_bounds (F := .x80) (m := m) (sign := sign) (N := N) (e := e) (st := st)).1
  simp only [Fmt.emin, Fmt.emax, Fmt.bias] at hlo hhi ⊢
  exact ⟨by omega, roundUnbounded_qu_bounds (F := .x80) hN⟩

theorem isPattern_deliverSubnormal {tiny : Bool} (hE : unroundedExp N e < F.emin) :
    IsPattern F (deliverSubnormal F m sign N e st tiny).res := by
  have hq := subnormal_q_le (m := m) (sign := sign) (st := st) hE
  unfold deliverSubnormal
  dsimp only
  split
  · rename_i hcarry
    refine isPattern_packNormal ?_
    rintro rfl
    rw [hcarry]
    decide
  · refine isPattern_packSubnormal ?_
    rintro rfl
    exact lt_of_le_of_ne hq ‹_›

/-! ### Completions -/

/-- The record a command keeps is well formed. -/
def Completion.RecordWf (c : Completion) : Prop := ∀ r, c.record = .write r → r.Wf

/-- What a command with a result of format `F` leaves: a pattern of `F`, and if it keeps a record a well-formed one. -/
def Completion.Sound (F : Fmt) (c : Completion) : Prop := IsPattern F c.res ∧ c.RecordWf

theorem sound_special {v : Word} (h : IsPattern F v) : (special v).Sound F := ⟨h, nofun⟩

theorem sound_specialRaising {v : Word} {f : Flag} (h : IsPattern F v) : (specialRaising f v).Sound F := ⟨h, nofun⟩

theorem sound_invalidOp (F : Fmt) : (invalidOp F).Sound F := sound_specialRaising (isPattern_defaultNaN F)

theorem sound_nanPath {xs : List Word} (hx : ∀ x ∈ xs, IsPattern F x) (hnan : xs.any (isNaN F) = true) :
    (nanPath F xs).Sound F := ⟨isPattern_nanSelect hx hnan, nofun⟩

/-- The rounding pass delivers a pattern, whatever the magnitude (R106 to R108). -/
theorem isPattern_roundPack (hN : 0 < N) : IsPattern F (roundPack F m tp sign N e st).res := by
  unfold roundPack
  dsimp only
  split_ifs with hE hov
  · exact isPattern_deliverOverflow
  · exact isPattern_deliverNormal hN hE (by omega)
  · exact isPattern_deliverSubnormal (by omega)

theorem recordWf_roundPack (hN : 0 < N) (hL : N < 2 ^ L) (hlo : -65976 ≤ e) (hhi : e + L ≤ 65976) :
    (roundPack F m tp sign N e st).RecordWf := by
  intro r hr
  cases hr
  obtain ⟨hq1, hq2⟩ := roundUnbounded_qu_bounds (F := F) (m := m) (sign := sign) (e := e) (st := st) hN
  obtain ⟨hE1, hE2⟩ := roundUnbounded_Eu_bounds (F := F) (m := m) (sign := sign) (N := N) (e := e) (st := st)
  have h1 := le_unroundedExp (e := e) hN
  have h2 := unroundedExp_lt (e := e) hL
  exact recordOf_wf hq1 hq2 (by omega) (by omega)

theorem sound_roundPack (hN : 0 < N) (hL : N < 2 ^ L) (hlo : -65976 ≤ e) (hhi : e + L ≤ 65976) :
    (roundPack F m tp sign N e st).Sound F :=
  ⟨isPattern_roundPack hN, recordWf_roundPack hN hL hlo hhi⟩

end Sys2Proof.Machine

/-! PROOFS. What every command's result function leaves for canonical operands: a result that fits, canonical when it is a
float, and a well-formed record when it keeps one. -/

namespace Sys2Proof.Machine

variable {F G : Fmt} {T : IntType} {m : RMode} {tp : BitVec 1} {a b c : Word}

/-! ### Arithmetic -/

theorem sound_nanPath_pair (ha : IsPattern F a) (hb : IsPattern F b) (h : (isNaN F a || isNaN F b) = true) :
    (nanPath F [a, b]).Sound F :=
  sound_nanPath (by simp [ha, hb]) (by simpa using h)

/-- The sum of two terms of at most `L` bits is below twice the larger place (R121). -/
theorem natAbs_aligned_sum_lt {M1 M2 e1 e2 : Int} {L : Nat} (h1 : M1.natAbs < 2 ^ L) (h2 : M2.natAbs < 2 ^ L) :
    (M1 * 2 ^ (e1 - min e1 e2).toNat + M2 * 2 ^ (e2 - min e1 e2).toNat).natAbs <
      2 ^ (L + (max e1 e2 - min e1 e2).toNat + 1) := by
  have hterm : ∀ {M e' : Int}, M.natAbs < 2 ^ L → e' ≤ max e1 e2 →
      (M * 2 ^ (e' - min e1 e2).toNat).natAbs < 2 ^ (L + (max e1 e2 - min e1 e2).toNat) := by
    intro M e' hM he
    rw [Int.natAbs_mul, Int.natAbs_pow, pow_add]
    exact Nat.mul_lt_mul_of_lt_of_le hM (Nat.pow_le_pow_right (by decide) (by omega)) (Nat.two_pow_pos _)
  have := Int.natAbs_add_le (M1 * 2 ^ (e1 - min e1 e2).toNat) (M2 * 2 ^ (e2 - min e1 e2).toNat)
  have := hterm h1 (le_max_left e1 e2)
  have := hterm h2 (le_max_right e1 e2)
  rw [pow_succ]
  omega

/-- An exact integer result in units of `2^e`: a zero, or rounded once (R121, R125). -/
theorem sound_exactResult {s s' : Bool} {r e : Int} {L : Nat} (hL : r.natAbs < 2 ^ L) (hlo : -65976 ≤ e)
    (hhi : e + L ≤ 65976) :
    (if r = 0 then special (zeroOf F s) else roundPack F m tp s' r.natAbs e false).Sound F := by
  split
  · exact sound_special (isPattern_zeroOf F s)
  · exact sound_roundPack (by omega) hL hlo hhi

theorem sound_sumResult {s1 s2 : Bool} {M1 M2 e1 e2 : Int} {L : Nat} (h1 : M1.natAbs < 2 ^ L)
    (h2 : M2.natAbs < 2 ^ L) (hlo1 : -65976 ≤ e1) (hlo2 : -65976 ≤ e2) (hhi1 : e1 + L + 1 ≤ 65976)
    (hhi2 : e2 + L + 1 ≤ 65976) : (sumResult F m tp s1 s2 M1 e1 M2 e2).Sound F := by
  exact sound_exactResult (natAbs_aligned_sum_lt h1 h2) (by omega) (by omega)

theorem sound_addNumbers (ha : IsPattern F a) (hb : IsPattern F b) : (addNumbers F m tp a b).Sound F := by
  have hea := intExpOf_bounds F a
  have heb := intExpOf_bounds F b
  unfold addNumbers
  dsimp only
  split_ifs
  · exact sound_invalidOp F
  · exact sound_special (isPattern_infOf F _)
  · exact sound_special (isPattern_infOf F _)
  · exact sound_special (isPattern_infOf F _)
  · exact sound_special (isPattern_zeroOf F _)
  · exact sound_special ha
  · exact sound_special hb
  · refine sound_sumResult (L := 113) ?_ ?_ ?_ ?_ ?_ ?_
    · exact natAbs_signedSig F a ▸ intSigOf_lt_two_pow_113 F a
    · exact natAbs_signedSig F b ▸ intSigOf_lt_two_pow_113 F b
    all_goals omega

theorem sound_addResult (ha : IsPattern F a) (hb : IsPattern F b) : (addResult F m tp a b).Sound F := by
  unfold addResult
  split
  · exact sound_nanPath_pair ha hb ‹_›
  · exact sound_addNumbers ha hb

theorem sound_subResult (ha : IsPattern F a) (hb : IsPattern F b) : (subResult F m tp a b).Sound F := by
  unfold subResult
  split
  · exact sound_nanPath_pair ha hb ‹_›
  · exact sound_addNumbers ha (isPattern_flipSign hb)

theorem intSigOf_mul_lt (F : Fmt) (a b : Word) : intSigOf F a * intSigOf F b < 2 ^ 226 := by
  rw [show 226 = 113 + 113 from rfl, pow_add]
  exact Nat.mul_lt_mul'' (intSigOf_lt_two_pow_113 F a) (intSigOf_lt_two_pow_113 F b)

/-- Neither operand is a zero, so both have a significand. -/
theorem intSigOf_pos_pair (ha : IsPattern F a) (hb : IsPattern F b) (hz : ¬(isZero F a || isZero F b) = true) :
    0 < intSigOf F a ∧ 0 < intSigOf F b := by
  rw [Bool.or_eq_true, not_or, Bool.not_eq_true, Bool.not_eq_true] at hz
  exact ⟨intSigOf_pos ha.2 hz.1, intSigOf_pos hb.2 hz.2⟩

theorem sound_mulResult (ha : IsPattern F a) (hb : IsPattern F b) : (mulResult F m tp a b).Sound F := by
  have hea := intExpOf_bounds F a
  have heb := intExpOf_bounds F b
  unfold mulResult
  dsimp only
  split_ifs with hnan hinf hz hz
  · exact sound_nanPath_pair ha hb hnan
  · exact sound_invalidOp F
  · exact sound_special (isPattern_infOf F _)
  · exact sound_special (isPattern_zeroOf F _)
  · obtain ⟨hpa, hpb⟩ := intSigOf_pos_pair ha hb hz
    exact sound_roundPack (Nat.mul_pos hpa hpb) (intSigOf_mul_lt F a b) (by omega) (by omega)

/-- The quotient taken with `2p + 2` more bits is not 0 and has at most `3p + 2` bits (R124). -/
theorem quotient_bounds (hpa : 0 < intSigOf F a) (hpb : 0 < intSigOf F b) :
    0 < intSigOf F a * 2 ^ (2 * F.p + 2) / intSigOf F b ∧
      intSigOf F a * 2 ^ (2 * F.p + 2) / intSigOf F b < 2 ^ (3 * F.p + 2) := by
  constructor
  · refine Nat.div_pos ?_ hpb
    calc intSigOf F b ≤ 2 ^ F.p := (intSigOf_lt F b).le
      _ ≤ 2 ^ (2 * F.p + 2) := Nat.pow_le_pow_right (by decide) (by omega)
      _ ≤ intSigOf F a * 2 ^ (2 * F.p + 2) := Nat.le_mul_of_pos_left _ hpa
  · calc intSigOf F a * 2 ^ (2 * F.p + 2) / intSigOf F b ≤ intSigOf F a * 2 ^ (2 * F.p + 2) := Nat.div_le_self _ _
      _ < 2 ^ F.p * 2 ^ (2 * F.p + 2) := Nat.mul_lt_mul_of_pos_right (intSigOf_lt F a) (Nat.two_pow_pos _)
      _ = 2 ^ (3 * F.p + 2) := by rw [← pow_add]; congr 1; omega

theorem sound_divResult (ha : IsPattern F a) (hb : IsPattern F b) : (divResult F m tp a b).Sound F := by
  have hea := intExpOf_bounds F a
  have heb := intExpOf_bounds F b
  have hp := F.p_le
  unfold divResult
  dsimp only
  split_ifs with hnan _ _ _ hzb _ hza
  · exact sound_nanPath_pair ha hb hnan
  · exact sound_invalidOp F
  · exact sound_special (isPattern_infOf F _)
  · exact sound_special (isPattern_zeroOf F _)
  · exact sound_invalidOp F
  · exact sound_specialRaising (isPattern_infOf F _)
  · exact sound_special (isPattern_zeroOf F _)
  · obtain ⟨hq0, hq⟩ := quotient_bounds (intSigOf_pos ha.2 (by simpa using hza)) (intSigOf_pos hb.2 (by simpa using hzb))
    exact sound_roundPack hq0 hq (by omega) (by omega)

/-- The remainder nearest to 0 is no larger than the divisor (R125). -/
theorem natAbs_remainder_le {A B : Nat} {up : Bool} (hB : 0 < B) :
    (if up then ((A % B : Nat) : Int) - B else (A % B : Nat)).natAbs ≤ B := by
  have := Nat.mod_lt A hB
  split <;> omega

theorem sound_remResult (ha : IsPattern F a) (hb : IsPattern F b) : (remResult F m tp a b).Sound F := by
  have hea := intExpOf_bounds F a
  have heb := intExpOf_bounds F b
  have hB : ∀ n, intSigOf F b * 2 ^ n < 2 ^ (113 + n) := fun n => by
    rw [pow_add]
    exact Nat.mul_lt_mul_of_pos_right (intSigOf_lt_two_pow_113 F b) (Nat.two_pow_pos n)
  unfold remResult
  dsimp only
  split
  · exact sound_nanPath_pair ha hb ‹_›
  split
  · exact sound_invalidOp F
  split
  · exact sound_special ha
  · have hzb : isZero F b = false := by simp_all
    have hpos := Nat.mul_pos (intSigOf_pos hb.2 hzb)
      (Nat.two_pow_pos (intExpOf F b - min (intExpOf F a) (intExpOf F b)).toNat)
    exact sound_exactResult ((natAbs_remainder_le hpos).trans_lt (hB _)) (by omega) (by omega)

/-- The integer root of a radicand is positive with it and no longer than it (R126). -/
theorem isqrt_bounds {x L : Nat} (hx : 0 < x) (hL : x < 2 ^ L) : 0 < isqrt x ∧ isqrt x < 2 ^ L := by
  rw [isqrt_eq_sqrt]
  exact ⟨Nat.sqrt_pos.mpr hx, (Nat.sqrt_le_self x).trans_lt hL⟩

theorem sound_sqrtResult (ha : IsPattern F a) : (sqrtResult F m tp a).Sound F := by
  have hea := intExpOf_bounds F a
  have hp := F.p_le
  unfold sqrtResult
  dsimp only
  split_ifs with hnan hz
  · exact sound_nanPath (by simpa using ha) (by simpa using hnan)
  · exact sound_special ha
  · exact sound_invalidOp F
  · exact sound_special ha
  all_goals
    have hpa : 0 < intSigOf F a := intSigOf_pos ha.2 (by simpa using hz)
    have hroot : ∀ k : Nat, 0 < isqrt (intSigOf F a * 2 ^ k) ∧ isqrt (intSigOf F a * 2 ^ k) < 2 ^ (113 + k) :=
      fun k => isqrt_bounds (Nat.mul_pos hpa (Nat.two_pow_pos k)) (by
        rw [pow_add]
        exact Nat.mul_lt_mul_of_pos_right (intSigOf_lt_two_pow_113 F a) (Nat.two_pow_pos k))
    exact sound_roundPack (hroot _).1 (hroot _).2 (by omega) (by omega)

theorem sound_fmaResult (ha : IsPattern F a) (hb : IsPattern F b) (hc : IsPattern F c) :
    (fmaResult F m tp a b c).Sound F := by
  have hea := intExpOf_bounds F a
  have heb := intExpOf_bounds F b
  have hec := intExpOf_bounds F c
  have hprod := intSigOf_mul_lt F a b
  unfold fmaResult
  dsimp only
  split_ifs with hnan _ _ _ _ hzp _ hzc
  · exact sound_nanPath (by simp [ha, hb, hc]) (by simpa [or_assoc] using hnan)
  · exact sound_invalidOp F
  · exact sound_invalidOp F
  · exact sound_special (isPattern_infOf F _)
  · exact sound_special hc
  · exact sound_special (isPattern_zeroOf F _)
  · exact sound_special hc
  · obtain ⟨hpa, hpb⟩ := intSigOf_pos_pair ha hb hzp
    exact sound_roundPack (Nat.mul_pos hpa hpb) hprod (by omega) (by omega)
  all_goals
    refine sound_sumResult (L := 226) (by omega) ?_ (by omega) (by omega) (by omega) (by omega)
    rw [natAbs_signedSig]
    exact (intSigOf_lt_two_pow_113 F c).trans (Nat.pow_lt_pow_right (by decide) (by decide))

/-! ### Conversions -/

theorem sound_i2fResult {v : Int} : (i2fResult F m tp v).Sound F := by
  unfold i2fResult
  split
  · exact sound_special (isPattern_zeroOf F _)
  · exact ⟨isPattern_roundPack (by omega), nofun⟩

theorem nanPayload_lt (F G : Fmt) (a : Word) : nanPayload F G a < 2 ^ G.t := by
  have hf : fracOf F a < 2 ^ F.t := Nat.mod_lt _ (Nat.two_pow_pos _)
  have ht : G.t - 1 < G.t := by cases G <;> decide
  refine Nat.or_lt_two_pow ?_ (Nat.pow_lt_pow_right (by decide) ht)
  split
  · calc fracOf F a * 2 ^ (G.t - F.t) < 2 ^ F.t * 2 ^ (G.t - F.t) :=
          Nat.mul_lt_mul_of_pos_right hf (Nat.two_pow_pos _)
      _ = 2 ^ G.t := by rw [← pow_add]; congr 1; omega
  · rw [Nat.div_lt_iff_lt_mul (Nat.two_pow_pos _), ← pow_add]
    exact hf.trans_le (Nat.pow_le_pow_right (by decide) (by omega))

theorem sound_nanConvert : (nanConvert F G a).Sound G := by
  refine ⟨isPattern_pack ?_, nofun⟩
  rintro rfl
  have hpay : nanPayload F .x80 a < 2 ^ 63 := nanPayload_lt F .x80 a
  rw [testBit_63_of_normalised (by simp [Fmt.explicitLead]) (by simp [Fmt.explicitLead]; omega)]
  decide

/-- Only `F32` and `F64` are narrower than `X80`; their significands and exponents lie well inside its range. -/
theorem narrower_than_x80_bounds (hp : F.p < Fmt.x80.p) (a : Word) :
    intSigOf F a < 2 ^ 53 ∧ -1074 ≤ intExpOf F a ∧ intExpOf F a ≤ 1024 := by
  have hN := intSigOf_lt F a
  have hw : bexpOf F a < 2 ^ F.w := Nat.mod_lt _ (Nat.two_pow_pos _)
  cases F
  case x80 => exact absurd hp (by decide)
  case f128 => exact absurd hp (by decide)
  all_goals
    simp only [intExpOf, Fmt.p, Fmt.w, Fmt.emin, Fmt.bias, Fmt.t] at *
    split <;> omega

/-- The significand shifted up to 64 bits is normalised (R153). -/
theorem shifted_significand_bounds {N : Nat} (hN : 0 < N) (h : bitlen N ≤ 64) :
    2 ^ 63 ≤ N * 2 ^ (64 - bitlen N) ∧ N * 2 ^ (64 - bitlen N) < 2 ^ 64 := by
  have hb := bitlen_pos hN
  constructor
  · calc 2 ^ 63 = 2 ^ (bitlen N - 1) * 2 ^ (64 - bitlen N) := by rw [← pow_add]; congr 1; omega
      _ ≤ N * 2 ^ (64 - bitlen N) := Nat.mul_le_mul_right _ (two_pow_bitlen_le hN)
  · calc N * 2 ^ (64 - bitlen N) < 2 ^ bitlen N * 2 ^ (64 - bitlen N) :=
          Nat.mul_lt_mul_of_pos_right (lt_two_pow_bitlen N) (Nat.two_pow_pos _)
      _ = 2 ^ 64 := by rw [← pow_add]; congr 1; omega

/-- A finite value of a narrower format is a normal value of `X80`. -/
theorem isPattern_widenPattern {s : Bool} (hp : F.p < G.p) (hpos : 0 < intSigOf F a) :
    IsPattern G (widenPattern G s (intSigOf F a) (intExpOf F a)) := by
  have hX : G = .x80 → (Fmt.x80.emin ≤ unroundedExp (intSigOf F a) (intExpOf F a) ∧
      unroundedExp (intSigOf F a) (intExpOf F a) ≤ Fmt.x80.emax) ∧ bitlen (intSigOf F a) ≤ 64 := by
    rintro rfl
    obtain ⟨hN, he1, he2⟩ := narrower_than_x80_bounds hp a
    have h1 := le_unroundedExp (e := intExpOf F a) hpos
    have h2 := unroundedExp_lt (e := intExpOf F a) hN
    have h3 := bitlen_le_of_lt hN
    simp only [Fmt.emin, Fmt.emax, Fmt.bias]
    omega
  unfold widenPattern
  dsimp only
  split
  · refine isPattern_packSubnormal ?_
    rintro rfl
    have := hX rfl
    omega
  · refine isPattern_packNormal ?_
    rintro rfl
    obtain ⟨⟨hE1, hE2⟩, hlen⟩ := hX rfl
    refine ⟨?_, shifted_significand_bounds hpos hlen⟩
    simp only [Fmt.emin, Fmt.emax, Fmt.bias] at hE1 hE2 ⊢
    omega

theorem sound_widenResult (hp : F.p < G.p) (ha : IsPattern F a) : (widenResult F G m tp a).Sound G := by
  unfold widenResult
  split_ifs with _ _ hz
  · exact sound_nanConvert
  · exact sound_special (isPattern_infOf G _)
  · exact sound_special (isPattern_zeroOf G _)
  · exact sound_special (isPattern_widenPattern hp (intSigOf_pos ha.2 (by simpa using hz)))

theorem sound_narrowResult (ha : IsPattern F a) : (narrowResult F G m tp a).Sound G := by
  have hea := intExpOf_bounds F a
  unfold narrowResult
  split_ifs with _ _ hz
  · exact sound_nanConvert
  · exact sound_special (isPattern_infOf G _)
  · exact sound_special (isPattern_zeroOf G _)
  · exact sound_roundPack (intSigOf_pos ha.2 (by simpa using hz)) (intSigOf_lt_two_pow_113 F a) (by omega) (by omega)

/-! ### Integer and Boolean results -/

/-- What a command with an integer or Boolean result of `n` bits leaves: a result that fits, and no record. -/
def Completion.Plain (n : Nat) (d : Completion) : Prop := d.res.toNat < 2 ^ n ∧ d.record = .invalidate

theorem plain_f2iInvalid {k : InvalidKind} : (f2iInvalid T k).Plain T.n := ⟨lowBits_lt T.n_le _, rfl⟩

theorem intPattern_lt (T : IntType) (i : Int) : (intPattern T i).toNat < 2 ^ T.n := by
  have hpos : (0 : Int) < 2 ^ T.n := by positivity
  have hlt : (i % 2 ^ T.n).toNat < 2 ^ T.n := by
    have h := Int.emod_lt_of_pos i hpos
    rw [Int.toNat_lt (Int.emod_nonneg i hpos.ne')]
    exact_mod_cast h
  rwa [intPattern, toNat_ofNat_of_lt T.n_le hlt]

theorem plain_f2iFinite {sign : Bool} {N : Nat} {e : Int} : (f2iFinite T m sign N e).Plain T.n := by
  unfold f2iFinite
  extract_lets r v
  split_ifs
  · exact plain_f2iInvalid
  · exact plain_f2iInvalid
  · exact ⟨intPattern_lt T v, rfl⟩

theorem plain_f2iCore : (f2iCore F T m a).Plain T.n := by
  unfold f2iCore
  split_ifs
  · exact plain_f2iInvalid
  · exact plain_f2iInvalid
  · exact plain_f2iInvalid
  · exact ⟨Nat.two_pow_pos _, rfl⟩
  · exact plain_f2iFinite

theorem boolResult_lt (b : Bool) : (boolResult b).toNat < 2 ^ 1 := by
  cases b <;> decide

theorem plain_compareResult {rel : Word → Word → Bool} {signalling : Bool} :
    (compareResult F rel signalling a b).Plain 1 := by
  unfold compareResult
  split
  · exact ⟨boolResult_lt _, rfl⟩
  · exact ⟨boolResult_lt _, rfl⟩

theorem plain_issnanResult : (issnanResult F a).Plain 1 := ⟨boolResult_lt _, rfl⟩

end Sys2Proof.Machine

/-! PROOFS. Every command at once: what it delivers when it completes (R65, R67), and the shape it has by the operands it reads
and its use of `RM` (R64, R67). -/

namespace Sys2Proof.Machine

variable {F : Fmt} {s t : State} {c : Cmd} {d : Completion} {P : Completion → Prop}

/-! ### What a command delivers -/

/-- A result of the command's width, canonical when it is a float, and a well-formed record if one is kept. -/
def Delivers (c : Cmd) (d : Completion) : Prop :=
  d.res.toNat < 2 ^ c.resultWidth ∧ (∀ F, c.resultFmt = some F → classOf F d.res ≠ .nonCanonical) ∧ d.RecordWf

theorem Completion.Sound.delivers (h : d.Sound F) (hf : c.resultFmt = some F) (hw : c.resultWidth = F.k) :
    Delivers c d := by
  obtain ⟨⟨hlt, hcanon⟩, hrec⟩ := h
  refine ⟨hw ▸ hlt, fun G hG => ?_, hrec⟩
  obtain rfl : F = G := Option.some.inj (hf ▸ hG)
  exact hcanon

theorem Completion.Plain.delivers {n : Nat} (h : d.Plain n) (hf : c.resultFmt = none) (hw : c.resultWidth = n) :
    Delivers c d := by
  obtain ⟨hlt, hrec⟩ := h
  exact ⟨hw ▸ hlt, by simp [hf], by simp [Completion.RecordWf, hrec]⟩

theorem runUnary_leaves {f : Word → Completion} (h : runUnary F f s = .next t)
    (hP : ∀ a, IsPattern F a → P (f a)) : ∃ d, t = s.complete d ∧ P d := by
  obtain ⟨_, ha, rfl⟩ := runUnary_eq_next.mp h
  exact ⟨_, rfl, hP _ (isPattern_lowBits ha)⟩

theorem runBinary_leaves {f : Word → Word → Completion} (h : runBinary F f s = .next t)
    (hP : ∀ a b, IsPattern F a → IsPattern F b → P (f a b)) : ∃ d, t = s.complete d ∧ P d := by
  obtain ⟨⟨_, ha⟩, ⟨_, hb⟩, rfl⟩ := runBinary_eq_next.mp h
  exact ⟨_, rfl, hP _ _ (isPattern_lowBits ha) (isPattern_lowBits hb)⟩

theorem runUnaryRounding_leaves {f : RMode → BitVec 1 → Word → Completion} (h : runUnaryRounding F f s = .next t)
    (hP : ∀ m tp a, IsPattern F a → P (f m tp a)) : ∃ d, t = s.complete d ∧ P d := by
  obtain ⟨m, _, h⟩ := runUnaryRounding_eq_next.mp h
  exact runUnary_leaves h (hP m s.tp)

theorem runBinaryRounding_leaves {f : RMode → BitVec 1 → Word → Word → Completion}
    (h : runBinaryRounding F f s = .next t)
    (hP : ∀ m tp a b, IsPattern F a → IsPattern F b → P (f m tp a b)) : ∃ d, t = s.complete d ∧ P d := by
  obtain ⟨m, _, h⟩ := runBinaryRounding_eq_next.mp h
  exact runBinary_leaves h (hP m s.tp)

theorem runTernaryRounding_leaves {f : RMode → BitVec 1 → Word → Word → Word → Completion}
    (h : runTernaryRounding F f s = .next t)
    (hP : ∀ m tp a b c, IsPattern F a → IsPattern F b → IsPattern F c → P (f m tp a b c)) :
    ∃ d, t = s.complete d ∧ P d := by
  obtain ⟨m, _, ⟨_, ha⟩, ⟨_, hb⟩, ⟨_, hc⟩, rfl⟩ := runTernaryRounding_eq_next.mp h
  exact ⟨_, rfl, hP _ _ _ _ _ (isPattern_lowBits ha) (isPattern_lowBits hb) (isPattern_lowBits hc)⟩

theorem runIntRounding_leaves {T : IntType} {f : RMode → BitVec 1 → Int → Completion}
    (h : runIntRounding T f s = .next t) (hP : ∀ m tp v, P (f m tp v)) : ∃ d, t = s.complete d ∧ P d := by
  obtain ⟨m, _, _, rfl⟩ := runIntRounding_eq_next.mp h
  exact ⟨_, rfl, hP _ _ _⟩

theorem arith_delivers {op : ArithOp} (h : runCmd (.arith op F) s = .next t) :
    ∃ d, t = s.complete d ∧ Delivers (.arith op F) d := by
  have ok : ∀ {d : Completion}, d.Sound F → Delivers (.arith op F) d := fun hd => hd.delivers rfl rfl
  cases op with
  | add => exact runBinaryRounding_leaves h fun _ _ _ _ ha hb => ok (sound_addResult ha hb)
  | sub => exact runBinaryRounding_leaves h fun _ _ _ _ ha hb => ok (sound_subResult ha hb)
  | mul => exact runBinaryRounding_leaves h fun _ _ _ _ ha hb => ok (sound_mulResult ha hb)
  | div => exact runBinaryRounding_leaves h fun _ _ _ _ ha hb => ok (sound_divResult ha hb)
  | rem => exact runBinaryRounding_leaves h fun _ _ _ _ ha hb => ok (sound_remResult ha hb)
  | sqrt => exact runUnaryRounding_leaves h fun _ _ _ ha => ok (sound_sqrtResult ha)
  | fma => exact runTernaryRounding_leaves h fun _ _ _ _ _ ha hb hc => ok (sound_fmaResult ha hb hc)

theorem cmp_delivers {op : CmpOp} (h : runCmd (.cmp op F) s = .next t) :
    ∃ d, t = s.complete d ∧ Delivers (.cmp op F) d := by
  have ok : ∀ rel signalling a b, Delivers (.cmp op F) (compareResult F rel signalling a b) :=
    fun _ _ _ _ => plain_compareResult.delivers rfl rfl
  cases op <;> exact runBinary_leaves h fun _ _ _ _ => ok _ _ _ _

theorem f2f_delivers {G : Fmt} (h : runCmd (.f2f F G) s = .next t) :
    ∃ d, t = s.complete d ∧ Delivers (.f2f F G) d := by
  simp only [runCmd] at h
  split at h
  · exact runUnaryRounding_leaves h fun _ _ _ ha => (sound_widenResult ‹_› ha).delivers rfl rfl
  · exact runUnaryRounding_leaves h fun _ _ _ ha => (sound_narrowResult ha).delivers rfl rfl

/-- `SCALED` packs into a hidden-bit format and keeps the record (R186). -/
theorem scaled_delivers (hF : F ≠ .x80) (h : runCmd (.scaled F) s = .next t) :
    ∃ d, t = s.complete d ∧ Delivers (.scaled F) d := by
  obtain ⟨_, _, _, _, rfl⟩ := runScaled_eq_next.mp h
  have hd : (⟨scaledPattern F s.raw (scaleOf s.opa.val), 0#7, .keep⟩ : Completion).Sound F :=
    ⟨isPattern_pack fun h => absurd h hF, nofun⟩
  exact ⟨_, rfl, hd.delivers rfl rfl⟩

theorem runCmd_delivers (hc : c.wellFormed = true) (h : runCmd c s = .next t) :
    ∃ d, t = s.complete d ∧ Delivers c d := by
  cases c with
  | arith op F => exact arith_delivers h
  | i2f T F => exact runIntRounding_leaves h fun _ _ _ => sound_i2fResult.delivers rfl rfl
  | f2i F T => exact runUnaryRounding_leaves h fun _ _ _ _ => plain_f2iCore.delivers rfl rfl
  | f2iRmm F T => exact runUnary_leaves h fun _ _ => plain_f2iCore.delivers rfl rfl
  | f2f F G => exact f2f_delivers h
  | cmp op F => exact cmp_delivers h
  | issnan F => exact runUnary_leaves h fun _ _ => plain_issnanResult.delivers rfl rfl
  | scaled F => exact scaled_delivers (by simpa [Cmd.wellFormed] using hc) h

theorem toCmd_wellFormed (i : Instr) : i.toCmd.wellFormed = true := by
  cases i <;> rfl

/-- Everything a command can do: it completes, and what it delivers fits. -/
theorem exec_delivers {i : Instr} (h : exec i s = .next t) : ∃ d, t = s.complete d ∧ Delivers i.toCmd d :=
  runCmd_delivers (toCmd_wellFormed i) (exec_eq_runCmd i s ▸ h)

/-! ### The shape of a command -/

/-- What a command reads: its operand registers, how many low bits of each, and `RM` or not (R64, R67). -/
inductive Shape (c : Cmd) : Prop
  | unary (F : Fmt) (f : Word → Completion) (run : runCmd c = runUnary F f) (mode : c.usesRM = false)
      (floats : c.floatOperands = some (F, 1)) (widths : c.readWidths = (F.k, 0, 0))
  | binary (F : Fmt) (f : Word → Word → Completion) (run : runCmd c = runBinary F f) (mode : c.usesRM = false)
      (floats : c.floatOperands = some (F, 2)) (widths : c.readWidths = (F.k, F.k, 0))
  | unaryRounding (F : Fmt) (f : RMode → BitVec 1 → Word → Completion) (run : runCmd c = runUnaryRounding F f)
      (mode : c.usesRM = true) (floats : c.floatOperands = some (F, 1)) (widths : c.readWidths = (F.k, 0, 0))
  | binaryRounding (F : Fmt) (f : RMode → BitVec 1 → Word → Word → Completion)
      (run : runCmd c = runBinaryRounding F f) (mode : c.usesRM = true)
      (floats : c.floatOperands = some (F, 2)) (widths : c.readWidths = (F.k, F.k, 0))
  | ternaryRounding (F : Fmt) (f : RMode → BitVec 1 → Word → Word → Word → Completion)
      (run : runCmd c = runTernaryRounding F f) (mode : c.usesRM = true)
      (floats : c.floatOperands = some (F, 3)) (widths : c.readWidths = (F.k, F.k, F.k))
  | intRounding (T : IntType) (f : RMode → BitVec 1 → Int → Completion) (run : runCmd c = runIntRounding T f)
      (mode : c.usesRM = true) (floats : c.floatOperands = none) (widths : c.readWidths = (T.n, 0, 0))
  | scaled (F : Fmt) (run : runCmd c = runScaled F) (mode : c.usesRM = false) (floats : c.floatOperands = none)
      (widths : c.readWidths = (32, 0, 0))

theorem shape_arith (op : ArithOp) (F : Fmt) : Shape (.arith op F) := by
  cases op with
  | sqrt => exact .unaryRounding F _ rfl rfl rfl rfl
  | fma => exact .ternaryRounding F _ rfl rfl rfl rfl
  | _ => exact .binaryRounding F _ rfl rfl rfl rfl

theorem shape_f2f (F G : Fmt) : Shape (.f2f F G) := by
  by_cases h : F.p < G.p
  · exact .unaryRounding F (widenResult F G) (by simp [runCmd, h]) rfl rfl rfl
  · exact .unaryRounding F (narrowResult F G) (by simp [runCmd, h]) rfl rfl rfl

/-- Every command has one of the seven shapes. -/
theorem shape (c : Cmd) : Shape c := by
  cases c with
  | arith op F => exact shape_arith op F
  | i2f T F => exact .intRounding T _ rfl rfl rfl rfl
  | f2i F T => exact .unaryRounding F _ rfl rfl rfl rfl
  | f2iRmm F T => exact .unary F _ rfl rfl rfl rfl
  | f2f F G => exact shape_f2f F G
  | cmp op F => cases op <;> exact .binary F _ rfl rfl rfl rfl
  | issnan F => exact .unary F _ rfl rfl rfl rfl
  | scaled F => exact .scaled F rfl rfl rfl rfl

end Sys2Proof.Machine

/-! PROOFS. The rules of the whole machine: the invariant, who may change which register, and the frame of a command. -/

namespace Sys2Proof.Machine

variable {s t : State} {rest : List HostOp}

/-! ### The invariant -/

theorem State.Inv.reset : State.reset.Inv := ⟨nofun, nofun⟩

theorem RecordUpdate.apply_wf {u : RecordUpdate} {r : Raw} (hu : ∀ r', u = .write r' → r'.Wf) (hr : r.Wf) :
    (u.apply r).Wf := by
  cases u with
  | write r' => exact hu r' rfl
  | invalidate => exact nofun
  | keep => exact hr

/-- The invariant speaks of `RES` and the record only. -/
theorem State.Inv.congr (h : s.Inv) (hraw : t.raw = s.raw) (hres : t.res = s.res) : t.Inv := by
  unfold State.Inv
  rwa [hraw, hres]

theorem State.Inv.complete {d : Completion} (h : s.Inv) (hd : d.RecordWf) : (s.complete d).Inv :=
  ⟨RecordUpdate.apply_wf hd h.1, fun _ => rfl⟩

theorem State.Inv.exec {i : Instr} (hs : s.Inv) (h : exec i s = .next t) : t.Inv := by
  obtain ⟨d, rfl, _, _, hrec⟩ := exec_delivers h
  exact hs.complete hrec

/-! ### What a host write leaves -/

/-- A host write to register number `reg` leaves every other register (R55). -/
structure WriteFrame (reg : Nat) (s t : State) : Prop where
  rm : reg ≠ 1 → t.rm = s.rm
  tp : reg ≠ 2 → t.tp = s.tp
  flags : reg ≠ 3 → t.flags = s.flags
  opa : reg ≠ 4 → t.opa = s.opa
  opb : reg ≠ 5 → t.opb = s.opb
  opc : reg ≠ 6 → t.opc = s.opc
  res : t.res = s.res
  raw : t.raw = s.raw

theorem hostWrite_frame {reg : Nat} {v : Word} (h : hostWrite reg v s = .next t) : WriteFrame reg s t := by
  obtain ⟨rfl, rfl⟩ | ⟨rfl, rfl⟩ | ⟨rfl, rfl⟩ | ⟨rfl, rfl⟩ | ⟨rfl, rfl⟩ | ⟨rfl, rfl⟩ := hostWrite_next h <;>
    constructor <;> simp

/-- Settles O12: after reset there is no record. -/
theorem invariantHoldsAtReset : Obligations.InvariantHoldsAtReset := State.Inv.reset

/-- Settles O13, by the kinds of step: a command keeps the invariant because its record is the rounding pass's, and no other
step but reset touches the record or `RES`. -/
theorem everyStepKeepsTheInvariant : Obligations.EveryStepKeepsTheInvariant := by
  intro s t hs h
  obtain ⟨_, rfl⟩ | ⟨v, rest, i, _, _, hx⟩ | ⟨reg, v, rest, _, _, hw⟩ | ⟨reg, rest, _, hr⟩ | ⟨rest, _, rfl⟩ :=
    step_next h
  · exact hs
  · have hs' : ({ s with host := rest } : State).Inv := hs
    exact hs'.exec hx
  · exact hs.congr (hostWrite_frame hw).raw (hostWrite_frame hw).res
  · obtain ⟨_, _, rfl⟩ := hostRead_next hr
    exact hs
  · exact State.Inv.reset

/-! ### Who changes a register -/

/-- A relation between the states before and after a step holds, unless the step is a host write to `reg` or the reset
event: it is enough that it holds of a command, a read and a write to another register. -/
theorem step_rel_or_host {R : State → State → Prop} (reg : Nat) (h : step s = .next t)
    (hidle : R s s)
    (hcommand : reg ≠ 0 → ∀ rest d, R s (State.complete { s with host := rest } d))
    (hread : ∀ rest reads draws, R s { s with host := rest, reads := reads, draws := draws })
    (hwrite : ∀ r v rest, r ≠ reg → hostWrite r v { s with host := rest } = .next t → R s t) :
    R s t ∨ ∃ v rest, s.host = .wr reg v :: rest ∨ s.host = .reset :: rest := by
  obtain ⟨_, rfl⟩ | ⟨v, rest, i, hs, _, hx⟩ | ⟨r, v, rest, hs, _, hw⟩ | ⟨r, rest, _, hr⟩ | ⟨rest, hs, _⟩ := step_next h
  · exact .inl hidle
  · by_cases h0 : reg = 0
    · exact .inr ⟨v, rest, .inl (h0 ▸ hs)⟩
    · obtain ⟨d, rfl⟩ := exec_next hx
      exact .inl (hcommand h0 rest d)
  · by_cases hreg : r = reg
    · exact .inr ⟨v, rest, .inl (hreg ▸ hs)⟩
    · exact .inl (hwrite r v rest hreg hw)
  · obtain ⟨_, _, rfl⟩ := hostRead_next hr
    exact .inl (hread rest _ _)
  · exact .inr ⟨0, rest, .inr hs⟩

/-- A field that no command and no read sets is changed by a host write to its register or by reset only. -/
theorem field_changed_by_host {α : Type} (field : State → α) (reg : Nat) (h : step s = .next t)
    (hwrite : ∀ r v rest, r ≠ reg → hostWrite r v { s with host := rest } = .next t → field t = field s)
    (hne : field t ≠ field s)
    (hcommand : ∀ rest d, field (State.complete { s with host := rest } d) = field s := by intros; rfl)
    (hread : ∀ rest reads draws, field { s with host := rest, reads := reads, draws := draws } = field s := by
      intros; rfl) : ∃ v rest, s.host = .wr reg v :: rest ∨ s.host = .reset :: rest :=
  (step_rel_or_host (R := fun s t => field t = field s) reg h rfl (fun _ => hcommand) hread hwrite).resolve_left hne

/-- Settles O14: no command, read or write to another register sets the field. -/
theorem onlyTheHostChangesModesAndOperands : Obligations.OnlyTheHostChangesModesAndOperands := fun s t h =>
  ⟨field_changed_by_host State.rm 1 h fun _ _ _ hr hw => (hostWrite_frame hw).rm hr,
    field_changed_by_host State.tp 2 h fun _ _ _ hr hw => (hostWrite_frame hw).tp hr,
    field_changed_by_host State.opa 4 h fun _ _ _ hr hw => (hostWrite_frame hw).opa hr,
    field_changed_by_host State.opb 5 h fun _ _ _ hr hw => (hostWrite_frame hw).opb hr,
    field_changed_by_host State.opc 6 h fun _ _ _ hr hw => (hostWrite_frame hw).opc hr⟩

theorem and_or_self (f g : BitVec 7) : f &&& (f ||| g) = f := by
  ext i
  simp +contextual

/-- Settles O15: a command ORs into `FLAGS`, and no read or write to another register sets it. -/
theorem onlyTheHostClearsFlags : Obligations.OnlyTheHostClearsFlags := by
  intro s t h hne
  refine (step_rel_or_host (R := fun s t => s.flags &&& t.flags = s.flags) 3 h ?_ ?_ ?_ ?_).resolve_left hne
  · exact BitVec.and_self
  · exact fun _ _ d => and_or_self s.flags d.fl
  · exact fun _ _ _ => BitVec.and_self
  · intro r v rest hr hw
    rw [(hostWrite_frame hw).flags hr]
    exact BitVec.and_self

/-- Settles O16: no read and no write to a register sets `RES` or the record. -/
theorem onlyCommandsChangeResultAndRecord : Obligations.OnlyCommandsChangeResultAndRecord := by
  intro s t h hne
  refine (step_rel_or_host (R := fun s t => t.res = s.res ∧ t.raw = s.raw) 0 h ⟨rfl, rfl⟩ (absurd rfl)
    (fun _ _ _ => ⟨rfl, rfl⟩) fun _ _ _ _ hw => ⟨(hostWrite_frame hw).res, (hostWrite_frame hw).raw⟩).resolve_left
    (by tauto)

/-! ### Commands -/

/-- Settles O20: every command ends in `State.complete`, which leaves the other fields. -/
theorem commandFrame : Obligations.CommandFrame := by
  intro i s t h
  obtain ⟨d, rfl⟩ := exec_next h
  exact ⟨rfl, rfl, rfl, rfl, rfl, and_or_self s.flags d.fl, rfl, rfl, rfl, rfl⟩

/-- Settles O22: both are part of what every command delivers. -/
theorem resultsFitAndAreCanonical : Obligations.ResultsFitAndAreCanonical := by
  intro i s t h
  obtain ⟨d, rfl, hfits, hcanon, _⟩ := exec_delivers h
  exact ⟨hfits, hcanon⟩

end Sys2Proof.Machine

/-! PROOFS. What a command takes from its operand registers: the misuse it is refused for, by name (R209), and the bits it
reads (R26, R64). -/

namespace Sys2Proof.Machine

variable {F : Fmt} {s t : State} {c : Cmd} {n : Nat}

/-! ### Misuse by name -/

theorem ofBits_of_lt {rm : BitVec 3} (h : rm.toNat < 6) : ∃ m, RMode.ofBits rm = some m :=
  Option.isSome_iff_exists.mp ((ofBits_isSome_iff rm).mpr h)

theorem ofBits_of_reserved {rm : BitVec 3} (h : 6 ≤ rm.toNat) : RMode.ofBits rm = none := by
  rw [← Option.not_isSome_iff_eq_none, ofBits_isSome_iff]
  omega

theorem withWritten_unwritten {r : MarkedReg} {k : Word → Host.Outcome State Fault Refusal}
    (hw : r.written = false) : withWritten r k = .refused .unwrittenOperand := by
  simp [withWritten, hw]

theorem runCmd_reservedMode (hc : c.usesRM = true) (h : 6 ≤ s.rm.toNat) :
    runCmd c s = .refused .reservedRoundingMode := by
  have hrm := ofBits_of_reserved h
  cases shape c with
  | unary F f run mode => simp [mode] at hc
  | binary F f run mode => simp [mode] at hc
  | scaled F run mode => simp [mode] at hc
  | unaryRounding F f run => exact run ▸ withMode_reserved hrm
  | binaryRounding F f run => exact run ▸ withMode_reserved hrm
  | ternaryRounding F f run => exact run ▸ withMode_reserved hrm
  | intRounding T f run => exact run ▸ withMode_reserved hrm

/-- With a mode to run in, a command of float operands takes `OPA`, then if it has two `OPB`, then if it has three `OPC`. -/
theorem runCmd_takes_floats (hm : c.usesRM = true → s.rm.toNat < 6) (hf : c.floatOperands = some (F, n)) :
    ∃ k : Word → Host.Outcome State Fault Refusal, runCmd c s = withOperand F s.opa k ∧
      (2 ≤ n → ∃ k₂ : Word → Word → Host.Outcome State Fault Refusal, (∀ a, k a = withOperand F s.opb (k₂ a)) ∧
        (3 ≤ n → ∃ k₃ : Word → Word → Word → Host.Outcome State Fault Refusal,
          ∀ a b, k₂ a b = withOperand F s.opc (k₃ a b))) := by
  cases shape c with
  | unary G f run mode floats =>
    obtain ⟨rfl, rfl⟩ : G = F ∧ 1 = n := by simpa [floats] using hf
    exact ⟨_, congrFun run s, by omega⟩
  | binary G f run mode floats =>
    obtain ⟨rfl, rfl⟩ : G = F ∧ 2 = n := by simpa [floats] using hf
    exact ⟨_, congrFun run s, fun _ => ⟨_, fun _ => rfl, by omega⟩⟩
  | unaryRounding G f run mode floats =>
    obtain ⟨rfl, rfl⟩ : G = F ∧ 1 = n := by simpa [floats] using hf
    obtain ⟨m, hm⟩ := ofBits_of_lt (hm mode)
    exact ⟨_, (congrFun run s).trans (withMode_ready hm), by omega⟩
  | binaryRounding G f run mode floats =>
    obtain ⟨rfl, rfl⟩ : G = F ∧ 2 = n := by simpa [floats] using hf
    obtain ⟨m, hm⟩ := ofBits_of_lt (hm mode)
    exact ⟨_, (congrFun run s).trans (withMode_ready hm), fun _ => ⟨_, fun _ => rfl, by omega⟩⟩
  | ternaryRounding G f run mode floats =>
    obtain ⟨rfl, rfl⟩ : G = F ∧ 3 = n := by simpa [floats] using hf
    obtain ⟨m, hm⟩ := ofBits_of_lt (hm mode)
    exact ⟨_, (congrFun run s).trans (withMode_ready hm), fun _ => ⟨_, fun _ => rfl, fun _ => ⟨_, fun _ _ => rfl⟩⟩⟩
  | intRounding T f run mode floats => simp [floats] at hf
  | scaled G run mode floats => simp [floats] at hf

/-- Every command reads `OPA` (R64). -/
theorem runCmd_unwritten_opa (hm : c.usesRM = true → s.rm.toNat < 6) (hw : s.opa.written = false) :
    runCmd c s = .refused .unwrittenOperand := by
  match hf : c.floatOperands with
  | some (F, n) =>
    obtain ⟨k, hk, _⟩ := runCmd_takes_floats hm hf
    rw [hk, withOperand_unwritten hw]
  | none =>
    cases shape c with
    | intRounding T f run mode =>
      obtain ⟨m, hm⟩ := ofBits_of_lt (hm mode)
      rw [run, runIntRounding, withMode_ready hm, withWritten_unwritten hw]
    | scaled G run => rw [run, runScaled, withWritten_unwritten hw]
    | unary G f run mode floats => simp [floats] at hf
    | binary G f run mode floats => simp [floats] at hf
    | unaryRounding G f run mode floats => simp [floats] at hf
    | binaryRounding G f run mode floats => simp [floats] at hf
    | ternaryRounding G f run mode floats => simp [floats] at hf

/-- An operand that may be taken is handed on. -/
theorem OperandOk.withOperand_eq {r : MarkedReg} (h : OperandOk F r) (k : Word → Host.Outcome State Fault Refusal) :
    withOperand F r k = k (operandOf F r) := withOperand_ready h.1 h.2

/-- Settles O19: the mode is read first, and then the operands in order. -/
theorem misusedCommandsAreRefusedByName : Obligations.MisusedCommandsAreRefusedByName := by
  intro i s F n
  rw [exec_eq_runCmd]
  refine ⟨runCmd_reservedMode, runCmd_unwritten_opa, fun hm hf => ?_⟩
  obtain ⟨k, hk, htwo⟩ := runCmd_takes_floats hm hf
  rw [hk]
  refine ⟨withOperand_nonCanonical, fun ha hn hw => ?_, fun ha hn hw hc => ?_, fun ha hb hn hw => ?_,
    fun ha hb hn hw hc => ?_⟩ <;> obtain ⟨k₂, hk₂, hthree⟩ := htwo (by omega) <;> rw [ha.withOperand_eq, hk₂]
  · exact withOperand_unwritten hw
  · exact withOperand_nonCanonical hw hc
  · obtain ⟨k₃, hk₃⟩ := hthree hn
    rw [hb.withOperand_eq, hk₃, withOperand_unwritten hw]
  · obtain ⟨k₃, hk₃⟩ := hthree hn
    rw [hb.withOperand_eq, hk₃, withOperand_nonCanonical hw hc]

/-! ### The bits read -/

section Agree

variable {a b c : MarkedReg}

/-- The state with other contents of the operand registers; no command's end looks at them (R33). -/
def State.withOperands (s : State) (a b c : MarkedReg) : State := { s with opa := a, opb := b, opc := c }

@[simp] theorem State.withOperands_opa : (s.withOperands a b c).opa = a := rfl

/-- The same command, run with other operand registers that agree with the first in what it reads, ends the same. -/
def SameEnd (run : State → Host.Outcome State Fault Refusal) (s : State) (a b c : MarkedReg) : Prop :=
  ∀ t, run s = .next t → run (s.withOperands a b c) = .next (t.withOperands a b c)

theorem withOperand_agree {r r' : MarkedReg} (h : r.AgreeOn F.k r') {k : Word → Host.Outcome State Fault Refusal} :
    withOperand F r k = .next t ↔
      (r'.written = true ∧ classOf F (lowBits F.k r'.val) ≠ .nonCanonical) ∧ k (lowBits F.k r'.val) = .next t := by
  rw [withOperand_congr h, withOperand_eq_next, and_assoc]

theorem runUnary_sameEnd {f : Word → Completion} (ha : a.AgreeOn F.k s.opa) : SameEnd (runUnary F f) s a b c := by
  intro t h
  obtain ⟨hw, hc, rfl⟩ := runUnary_eq_next.mp h
  exact (withOperand_agree ha).mpr ⟨⟨hw, hc⟩, rfl⟩

theorem runBinary_sameEnd {f : Word → Word → Completion} (ha : a.AgreeOn F.k s.opa) (hb : b.AgreeOn F.k s.opb) :
    SameEnd (runBinary F f) s a b c := by
  intro t h
  obtain ⟨hopa, hopb, rfl⟩ := runBinary_eq_next.mp h
  exact (withOperand_agree ha).mpr ⟨hopa, (withOperand_agree hb).mpr ⟨hopb, rfl⟩⟩

theorem runUnaryRounding_sameEnd {f : RMode → BitVec 1 → Word → Completion} (ha : a.AgreeOn F.k s.opa) :
    SameEnd (runUnaryRounding F f) s a b c := by
  intro t h
  obtain ⟨m, hm, h⟩ := runUnaryRounding_eq_next.mp h
  exact runUnaryRounding_eq_next.mpr ⟨m, hm, runUnary_sameEnd ha t h⟩

theorem runBinaryRounding_sameEnd {f : RMode → BitVec 1 → Word → Word → Completion} (ha : a.AgreeOn F.k s.opa)
    (hb : b.AgreeOn F.k s.opb) : SameEnd (runBinaryRounding F f) s a b c := by
  intro t h
  obtain ⟨m, hm, h⟩ := runBinaryRounding_eq_next.mp h
  exact runBinaryRounding_eq_next.mpr ⟨m, hm, runBinary_sameEnd ha hb t h⟩

theorem runTernaryRounding_sameEnd {f : RMode → BitVec 1 → Word → Word → Word → Completion}
    (ha : a.AgreeOn F.k s.opa) (hb : b.AgreeOn F.k s.opb) (hc : c.AgreeOn F.k s.opc) :
    SameEnd (runTernaryRounding F f) s a b c := by
  intro t h
  obtain ⟨m, hm, hopa, hopb, hopc, rfl⟩ := runTernaryRounding_eq_next.mp h
  exact withMode_eq_next.mpr ⟨m, hm, (withOperand_agree ha).mpr ⟨hopa, (withOperand_agree hb).mpr
    ⟨hopb, (withOperand_agree hc).mpr ⟨hopc, rfl⟩⟩⟩⟩

theorem runIntRounding_sameEnd {T : IntType} {f : RMode → BitVec 1 → Int → Completion}
    (ha : a.AgreeOn T.n s.opa) : SameEnd (runIntRounding T f) s a b c := by
  intro t h
  obtain ⟨m, hm, hw, rfl⟩ := runIntRounding_eq_next.mp h
  obtain ⟨hwa, hva⟩ := ha T.n_pos
  refine runIntRounding_eq_next.mpr ⟨m, hm, hwa.trans hw, ?_⟩
  rw [State.withOperands_opa, intValue_congr hva]
  rfl

theorem runScaled_sameEnd (ha : a.AgreeOn 32 s.opa) : SameEnd (runScaled F) s a b c := by
  intro t h
  obtain ⟨hw, hvalid, hfmt, hexp, rfl⟩ := runScaled_eq_next.mp h
  obtain ⟨hwa, hva⟩ := ha (by decide)
  have hscale : scaleOf a.val = scaleOf s.opa.val := intValue_congr (T := .i32) hva
  refine runScaled_eq_next.mpr ⟨hwa.trans hw, hvalid, hfmt, ?_, ?_⟩ <;> rw [State.withOperands_opa, hscale]
  · exact hexp
  · rfl

theorem runCmd_sameEnd {cmd : Cmd} (ha : a.AgreeOn cmd.readWidths.1 s.opa)
    (hb : b.AgreeOn cmd.readWidths.2.1 s.opb) (hc : c.AgreeOn cmd.readWidths.2.2 s.opc) :
    SameEnd (runCmd cmd) s a b c := by
  cases shape cmd with
  | unary F f run mode floats widths => rw [widths] at ha; exact run ▸ runUnary_sameEnd ha
  | binary F f run mode floats widths => rw [widths] at ha hb; exact run ▸ runBinary_sameEnd ha hb
  | unaryRounding F f run mode floats widths => rw [widths] at ha; exact run ▸ runUnaryRounding_sameEnd ha
  | binaryRounding F f run mode floats widths => rw [widths] at ha hb; exact run ▸ runBinaryRounding_sameEnd ha hb
  | ternaryRounding F f run mode floats widths =>
    rw [widths] at ha hb hc
    exact run ▸ runTernaryRounding_sameEnd ha hb hc
  | intRounding T f run mode floats widths => rw [widths] at ha; exact run ▸ runIntRounding_sameEnd ha
  | scaled F run mode floats widths => rw [widths] at ha; exact run ▸ runScaled_sameEnd ha

end Agree

/-- Settles O23, by the shape of the command. -/
theorem highOperandBitsAreIgnored : Obligations.HighOperandBitsAreIgnored := by
  intro i s t a b c ha hb hc h
  rw [exec_eq_runCmd] at h ⊢
  exact runCmd_sameEnd ha hb hc t h

end Sys2Proof.Machine

/-! PROOFS. The host's port: writes of a command word (R22, R66), reset (R34), and reads and writes of the other registers
(R21, R29, R55). -/

namespace Sys2Proof

/-! ### The command word -/

/-- The conditions of R66 on the numbers the four fields of a word hold. -/
def WordOk (z aux fmt op : Nat) : Prop :=
  z = 0 ∧
    op ∈ [0x01, 0x02, 0x03, 0x04, 0x05, 0x06, 0x07, 0x10, 0x11, 0x12, 0x13, 0x20, 0x21, 0x22, 0x23, 0x24, 0x25,
      0x26, 0x30] ∧
    (aux = 0 ∨ op ∈ [0x10, 0x11, 0x12, 0x13]) ∧ (op = 0x13 → aux ≠ fmt) ∧ (op = 0x30 → fmt ≠ 2)

/-- The two shapes that are no command are the only ones that name no instruction (R66). -/
theorem Instr.exists_ofCmd_eq_ok_iff (c : Cmd) : (∃ i, Instr.ofCmd c = .ok i) ↔ c.wellFormed = true := by
  have h : (Instr.ofCmd c).isOk = c.wellFormed := by
    cases c with
    | arith op F => cases op <;> cases F <;> rfl
    | i2f T F => cases T <;> cases F <;> rfl
    | f2i F T => cases F <;> cases T <;> rfl
    | f2iRmm F T => cases F <;> cases T <;> rfl
    | f2f F G => cases F <;> cases G <;> rfl
    | cmp op F => cases op <;> cases F <;> rfl
    | issnan F => cases F <;> rfl
    | scaled F => cases F <;> rfl
  rw [← h]
  cases Instr.ofCmd c <;> simp [Except.isOk, Except.toBool]

theorem Fmt.ofCode_eq_iff (c d : BitVec 2) : Fmt.ofCode c = Fmt.ofCode d ↔ d.toNat = c.toNat := by
  revert c d; decide

theorem Fmt.ofCode_eq_x80_iff (c : BitVec 2) : Fmt.ofCode c = .x80 ↔ c.toNat = 2 := by
  revert c; decide

theorem CmdFields.exists_withoutAux_iff (f : CmdFields) (c : Cmd) :
    (∃ c', f.withoutAux c = .ok c' ∧ c'.wellFormed = true) ↔ f.aux.toNat = 0 ∧ c.wellFormed = true := by
  have h : f.aux = 0#2 ↔ f.aux.toNat = 0 := by rw [← BitVec.toNat_inj]; rfl
  unfold CmdFields.withoutAux
  rw [← h]
  split <;> simp_all

/-- The fields name a command exactly under the conditions of R66: one case per value of `OP`. -/
theorem Cmd.exists_ofFields_iff (f : CmdFields) :
    (∃ c, Cmd.ofFields f = .ok c ∧ c.wellFormed = true) ↔
      WordOk f.zero.toNat f.aux.toNat f.fmt.toNat f.op.toNat := by
  have hz : f.zero = 0#4 ↔ f.zero.toNat = 0 := by rw [← BitVec.toNat_inj]; rfl
  unfold Cmd.ofFields WordOk
  split
  case isFalse h => simp [← hz, h]
  case isTrue h =>
    rw [hz] at h
    split <;> simp only [CmdFields.exists_withoutAux_iff, *] <;>
      simp_all [Cmd.wellFormed, Fmt.ofCode_eq_iff, Fmt.ofCode_eq_x80_iff]

theorem exists_decode_eq_ok_iff (w : CmdWord) :
    (∃ i, decode w = .ok i) ↔
      WordOk (w.toNat / 2 ^ 12) (w.toNat / 2 ^ 10 % 4) (w.toNat / 2 ^ 8 % 4) (w.toNat % 2 ^ 8) := by
  have hzero : (CmdFields.ofWord w).zero.toNat = w.toNat / 2 ^ 12 := by
    have := w.isLt
    simp only [CmdFields.ofWord, BitVec.extractLsb'_toNat, Nat.shiftRight_eq_div_pow]
    omega
  have haux : (CmdFields.ofWord w).aux.toNat = w.toNat / 2 ^ 10 % 4 := by
    simp [CmdFields.ofWord, Nat.shiftRight_eq_div_pow]
  have hfmt : (CmdFields.ofWord w).fmt.toNat = w.toNat / 2 ^ 8 % 4 := by
    simp [CmdFields.ofWord, Nat.shiftRight_eq_div_pow]
  have hop : (CmdFields.ofWord w).op.toNat = w.toNat % 2 ^ 8 := by simp [CmdFields.ofWord]
  rw [← hzero, ← haux, ← hfmt, ← hop, ← Cmd.exists_ofFields_iff, decode, Instr.ofFields]
  cases Cmd.ofFields (CmdFields.ofWord w) <;> simp [Instr.exists_ofCmd_eq_ok_iff]

namespace Machine

variable {s t : State} {rest : List HostOp}

/-- Settles O5: the low 16 bits of the value are the word decoded. -/
theorem stepRunsTheDecodedCommand : Obligations.StepRunsTheDecodedCommand := by
  intro s v rest i hs hd
  rw [← BitVec.setWidth_eq_extractLsb' (by decide)] at hd
  exact step_command hs hd

/-- A command's misuse is never that its word is reserved: the decoder alone says so. -/
theorem withOperand_ne_reserved {F : Fmt} {r : MarkedReg} {k : Word → Host.Outcome State Fault Refusal} {why : Reject}
    (h : ∀ a, k a ≠ .refused (.reservedCommand why)) : withOperand F r k ≠ .refused (.reservedCommand why) := by
  unfold withOperand
  split_ifs <;> simp [h]

theorem withWritten_ne_reserved {r : MarkedReg} {k : Word → Host.Outcome State Fault Refusal} {why : Reject}
    (h : ∀ a, k a ≠ .refused (.reservedCommand why)) : withWritten r k ≠ .refused (.reservedCommand why) := by
  unfold withWritten
  split_ifs <;> simp [h]

theorem withMode_ne_reserved {k : RMode → Host.Outcome State Fault Refusal} {why : Reject}
    (h : ∀ m, k m ≠ .refused (.reservedCommand why)) : withMode s k ≠ .refused (.reservedCommand why) := by
  unfold withMode
  split <;> simp [h]

theorem runCmd_ne_reserved (c : Cmd) (s : State) (why : Reject) : runCmd c s ≠ .refused (.reservedCommand why) := by
  have unary : ∀ F f, runUnary F f s ≠ .refused (.reservedCommand why) := fun F f =>
    withOperand_ne_reserved fun _ => nofun
  have binary : ∀ F f, runBinary F f s ≠ .refused (.reservedCommand why) := fun F f =>
    withOperand_ne_reserved fun _ => withOperand_ne_reserved fun _ => nofun
  cases shape c with
  | unary F f run => exact run ▸ unary F f
  | binary F f run => exact run ▸ binary F f
  | unaryRounding F f run => exact run ▸ withMode_ne_reserved fun _ => unary F _
  | binaryRounding F f run => exact run ▸ withMode_ne_reserved fun _ => binary F _
  | ternaryRounding F f run =>
    exact run ▸ withMode_ne_reserved fun _ => withOperand_ne_reserved fun _ => withOperand_ne_reserved fun _ =>
      withOperand_ne_reserved fun _ => nofun
  | intRounding T f run =>
    exact run ▸ withMode_ne_reserved fun _ => withWritten_ne_reserved fun _ => nofun
  | scaled F run =>
    refine run ▸ withWritten_ne_reserved fun _ => ?_
    split_ifs <;> nofun

theorem step_refused_reserved_iff {v : Word} (hs : s.host = .wr 0 v :: rest) :
    (∃ why, step s = .refused (.reservedCommand why)) ↔ ¬∃ i, decode (v.setWidth 16) = .ok i := by
  match hd : decode (v.setWidth 16) with
  | .ok i =>
    rw [step_command hs hd, exec_eq_runCmd]
    simp [runCmd_ne_reserved]
  | .error why =>
    rw [step_reserved hs hd]
    simp

/-- Settles O4: the step refuses what the decoder does not accept, and that is what breaks a condition of R66. -/
theorem reservedWordsAreRefused : Obligations.ReservedWordsAreRefused := by
  intro s v rest hs
  rw [step_refused_reserved_iff hs, exists_decode_eq_ok_iff, BitVec.toNat_setWidth]
  rfl

/-! ### Reset -/

/-- Settles O7: the reset event is the state after reset with the host's side kept. -/
theorem resetLeavesTheStateOfTheTable : Obligations.ResetLeavesTheStateOfTheTable := by
  refine ⟨⟨rfl, rfl, rfl, rfl, rfl, rfl, rfl, rfl⟩, fun s rest hs => ⟨_, step_reset hs, ?_, rfl, rfl⟩⟩
  exact ⟨rfl, rfl, rfl, rfl, rfl, rfl, rfl, rfl⟩

/-! ### Writes and reads of the other registers -/

/-- Settles O8, register by register. -/
theorem hostWriteOnlyStoresTheValue : Obligations.HostWriteOnlyStoresTheValue := by
  intro s reg v rest hs
  refine ⟨?_, ?_, ?_, ?_, ?_, ?_⟩ <;> rintro rfl <;> rw [step_write hs (by decide)]
  all_goals simp [hostWrite, BitVec.setWidth_eq_extractLsb']

/-- A read that delivers `v`: what it draws is counted. -/
theorem step_read_ok {reg : Nat} {v : Word} (hs : s.host = .rd reg :: rest)
    (hv : readReg { s with host := rest } reg = .ok v) :
    step s = .next { s with
      host := rest, reads := v :: s.reads, draws := s.draws + (if readDraws s reg then 1 else 0) } := by
  rw [step_read hs, hostRead, hv]
  rfl

theorem step_read_error {reg : Nat} {r : Refusal} (hs : s.host = .rd reg :: rest)
    (hr : readReg { s with host := rest } reg = .error r) : step s = .refused r := by
  rw [step_read hs, hostRead, hr]

/-- A read that draws nothing. -/
theorem step_read_drawless {reg : Nat} {v : Word} (hs : s.host = .rd reg :: rest)
    (hv : readReg { s with host := rest } reg = .ok v) (hd : reg < 8 ∨ s.raw.valid = true) :
    step s = .next { s with host := rest, reads := v :: s.reads } := by
  have hnot : readDraws s reg = false := by
    rcases hd with hd | hd
    · simp [readDraws, show ¬8 ≤ reg by omega]
    · simp [readDraws, hd]
  rw [step_read_ok hs hv, hnot]
  rfl

theorem markedValue_written {r : MarkedReg} (h : r.written = true) : markedValue r = .ok r.val := by
  simp [markedValue, h]

theorem markedValue_unwritten {r : MarkedReg} (h : r.written = false) : markedValue r = .error .unwrittenRead := by
  simp [markedValue, h]

/-- The bits of `RAW_ATTR` of a valid record (R29). -/
theorem rawAttr_valid {r : Raw} (h : r.valid = true) (draw : Word) :
    (rawAttr r draw).setWidth 128 = BitVec.ofNat 128 (r.sign.toNat + 2 * r.inexact.toNat + 4 * r.incre.toNat +
      8 * r.tiny.toNat + 16 * r.fmt.code.toNat + 64) := by
  obtain ⟨valid, fmt, sign, inexact, incre, tiny, exp, sig⟩ := r
  obtain rfl : valid = true := h
  simp only [rawAttr, if_true]
  cases fmt <;> revert sign inexact incre tiny <;> decide

/-- Settles O9, register by register: none of these reads draws a value. -/
theorem hostReadDeliversTheRegister : Obligations.HostReadDeliversTheRegister := by
  intro s reg rest hs
  refine ⟨?_, ?_, ?_, ?_, ?_, ?_, ?_, ?_, ?_, ?_⟩ <;> rintro rfl
  · exact step_read_drawless hs (by rw [BitVec.ofNat_toNat]; rfl) (.inl (by decide))
  · exact step_read_drawless hs (by rw [BitVec.ofNat_toNat]; rfl) (.inl (by decide))
  · exact step_read_drawless hs (by rw [BitVec.ofNat_toNat]; rfl) (.inl (by decide))
  · exact fun hw => step_read_drawless hs (markedValue_written hw) (.inl (by decide))
  · exact fun hw => step_read_drawless hs (markedValue_written hw) (.inl (by decide))
  · exact fun hw => step_read_drawless hs (markedValue_written hw) (.inl (by decide))
  · exact fun hw => step_read_drawless hs (markedValue_written hw) (.inl (by decide))
  · exact fun hv => step_read_drawless hs (by simp [readReg, rawOrDraw, hv]) (.inr hv)
  · exact fun hv => step_read_drawless hs (by simp [readReg, rawOrDraw, hv]) (.inr hv)
  · exact fun hv => step_read_drawless hs (by simp only [readReg, rawAttr_valid hv]) (.inr hv)

/-- What a read of an invalid record delivers fits the register, and bits 7:6 of `RAW_ATTR` read 0 (R29). -/
theorem readReg_invalid {reg : Nat} (hv : s.raw.valid = false) (h8 : 8 ≤ reg) (h10 : reg ≤ 10) :
    ∃ v, readReg s reg = .ok v ∧ (reg = 9 → v.toNat < 2 ^ 32) ∧ (reg = 10 → v.toNat < 2 ^ 6) := by
  obtain rfl | rfl | rfl : reg = 8 ∨ reg = 9 ∨ reg = 10 := by omega
  · exact ⟨_, rfl, nofun, nofun⟩
  · refine ⟨_, rfl, fun _ => ?_, nofun⟩
    simpa [rawOrDraw, hv] using lowBits_lt (by decide : 32 ≤ 128) (Config.freeRead s.draws)
  · refine ⟨_, rfl, nofun, fun _ => ?_⟩
    simp [rawAttr, hv]
    omega

/-- Settles O10: the read draws a value and cuts it to the register's width. -/
theorem readOfAnInvalidRecordIsSomeValue : Obligations.ReadOfAnInvalidRecordIsSomeValue := by
  intro s reg rest hs hv h8 h10
  obtain ⟨v, hread, hfits⟩ := readReg_invalid (s := { s with host := rest }) hv h8 h10
  refine ⟨v, ?_, hfits⟩
  rw [step_read_ok hs hread, show readDraws s reg = true by simp [readDraws, hv, h8, h10]]
  rfl

theorem hostWrite_readOnly {reg : Nat} {v : Word} (h7 : 7 ≤ reg) (h10 : reg ≤ 10) :
    hostWrite reg v s = .refused .readOnlyRegister := by
  obtain rfl | rfl | rfl | rfl : reg = 7 ∨ reg = 8 ∨ reg = 9 ∨ reg = 10 := by omega
  all_goals rfl

theorem hostWrite_noSuchRegister {reg : Nat} {v : Word} (h : 11 ≤ reg) :
    hostWrite reg v s = .refused .noSuchRegister := by
  obtain ⟨k, rfl⟩ := Nat.exists_eq_add_of_le' h
  rfl

theorem readReg_noSuchRegister {reg : Nat} (h : 11 ≤ reg) : readReg s reg = .error .noSuchRegister := by
  obtain ⟨k, rfl⟩ := Nat.exists_eq_add_of_le' h
  rfl

/-- Settles O11: the read or write itself is refused. -/
theorem misusedAccessesAreRefused : Obligations.MisusedAccessesAreRefused := by
  intro s reg v rest
  refine ⟨fun hs => step_read_error hs rfl, fun hs h7 h10 => ?_, fun hs h => ?_,
    fun hs h => step_read_error hs (readReg_noSuchRegister h),
    fun hs hw => step_read_error hs (markedValue_unwritten hw),
    fun hs hw => step_read_error hs (markedValue_unwritten hw),
    fun hs hw => step_read_error hs (markedValue_unwritten hw),
    fun hs hw => step_read_error hs (markedValue_unwritten hw)⟩
  · rw [step_write hs (by omega), hostWrite_readOnly h7 h10]
  · rw [step_write hs (by omega), hostWrite_noSuchRegister h]

end Machine
end Sys2Proof

/-! PROOFS. The command word: each layer of the decoder is undone by the encoder's (R60 to R67), so that the decoder accepts
exactly the words of the 119 instructions. -/

namespace Sys2Proof

/-! ### Codes of the types -/

@[simp] theorem Fmt.ofCode_code (F : Fmt) : Fmt.ofCode F.code = F := by cases F <;> rfl

@[simp] theorem Fmt.code_ofCode (c : BitVec 2) : (Fmt.ofCode c).code = c := by revert c; decide

@[simp] theorem IntType.ofCode_code (T : IntType) : IntType.ofCode T.code = T := by cases T <;> rfl

@[simp] theorem IntType.code_ofCode (c : BitVec 2) : (IntType.ofCode c).code = c := by revert c; decide

/-! ### Word and fields -/

theorem CmdFields.ofWord_toWord (f : CmdFields) : CmdFields.ofWord f.toWord = f := by
  have hop : f.toWord.extractLsb' 0 8 = f.op := BitVec.extractLsb'_append_eq_right
  have hfmt : f.toWord.extractLsb' 8 2 = f.fmt :=
    (BitVec.extractLsb'_append_eq_of_le (by decide)).trans BitVec.extractLsb'_append_eq_right
  have haux : f.toWord.extractLsb' 10 2 = f.aux :=
    (BitVec.extractLsb'_append_eq_of_le (by decide)).trans <|
      (BitVec.extractLsb'_append_eq_of_le (by decide)).trans BitVec.extractLsb'_append_eq_right
  have hzero : f.toWord.extractLsb' 12 4 = f.zero :=
    (BitVec.extractLsb'_append_eq_of_le (by decide)).trans <|
      (BitVec.extractLsb'_append_eq_of_le (by decide)).trans BitVec.extractLsb'_append_eq_left
  rw [ofWord, hzero, haux, hfmt, hop]

/-- The four fields are the whole word: no bit is dropped (R60). -/
theorem CmdFields.toWord_ofWord (w : CmdWord) : (CmdFields.ofWord w).toWord = w := by
  simp only [ofWord, toWord]
  rw [BitVec.extractLsb'_append_extractLsb'_eq_extractLsb' (by decide),
    BitVec.extractLsb'_append_extractLsb'_eq_extractLsb' (by decide),
    BitVec.extractLsb'_append_extractLsb'_eq_extractLsb' (by decide)]
  exact BitVec.extractLsb'_eq_self

theorem CmdFields.ofWord_eq_iff {w : CmdWord} {f : CmdFields} : CmdFields.ofWord w = f ↔ w = f.toWord :=
  ⟨fun h => by rw [← h, toWord_ofWord], fun h => by rw [h, ofWord_toWord]⟩

/-! ### Fields and command -/

theorem CmdFields.withoutAux_eq_ok_iff {f : CmdFields} {c d : Cmd} :
    f.withoutAux c = .ok d ↔ f.aux = 0#2 ∧ c = d := by
  unfold CmdFields.withoutAux
  split <;> simp_all

theorem Cmd.ofFields_toFields (c : Cmd) : Cmd.ofFields c.toFields = .ok c := by
  cases c with
  | arith op F => cases op <;> simp [Cmd.ofFields, Cmd.toFields, ArithOp.code, CmdFields.withoutAux]
  | cmp op F => cases op <;> simp [Cmd.ofFields, Cmd.toFields, CmpOp.code, CmdFields.withoutAux]
  | _ => simp [Cmd.ofFields, Cmd.toFields, CmdFields.withoutAux]

theorem CmdFields.eq_of_parts {f g : CmdFields} (hzero : f.zero = g.zero) (haux : f.aux = g.aux)
    (hfmt : f.fmt = g.fmt) (hop : f.op.toNat = g.op.toNat) : f = g := by
  cases f
  cases g
  simp_all [BitVec.toNat_inj]

/-- The command named by the fields has those fields: one case per value of `OP`, by its use of `AUX`. -/
theorem Cmd.toFields_of_ofFields {f : CmdFields} {c : Cmd} (h : Cmd.ofFields f = .ok c) : f = c.toFields := by
  unfold Cmd.ofFields at h
  split at h
  case isFalse => cases h
  case isTrue hzero =>
    split at h
    case h_8 hop | h_9 hop | h_10 hop =>
      cases h
      exact CmdFields.eq_of_parts hzero (IntType.code_ofCode _).symm (Fmt.code_ofCode _).symm hop
    case h_11 hop =>
      cases h
      exact CmdFields.eq_of_parts hzero (Fmt.code_ofCode _).symm (Fmt.code_ofCode _).symm hop
    case h_20 => cases h
    all_goals
      rename_i hop
      obtain ⟨haux, rfl⟩ := CmdFields.withoutAux_eq_ok_iff.mp h
      exact CmdFields.eq_of_parts hzero haux (Fmt.code_ofCode _).symm hop

theorem Cmd.ofFields_eq_ok_iff {f : CmdFields} {c : Cmd} : Cmd.ofFields f = .ok c ↔ f = c.toFields :=
  ⟨toFields_of_ofFields, fun h => h ▸ ofFields_toFields c⟩

/-! ### Command and instruction -/

theorem Instr.ofCmd_toCmd (i : Instr) : Instr.ofCmd i.toCmd = .ok i := by cases i <;> rfl

theorem Instr.ofCmd_eq_ok_iff {c : Cmd} {i : Instr} : Instr.ofCmd c = .ok i ↔ c = i.toCmd := by
  refine ⟨fun h => ?_, fun h => h ▸ ofCmd_toCmd i⟩
  unfold Instr.ofCmd at h
  split at h <;> cases h <;> rfl

/-- The decoder accepts exactly the encoder's words, each as its own instruction (R60 to R67). -/
theorem decode_eq_ok_iff {w : CmdWord} {i : Instr} : decode w = .ok i ↔ w = encode i := by
  calc decode w = .ok i
    _ ↔ ∃ c, Cmd.ofFields (CmdFields.ofWord w) = .ok c ∧ Instr.ofCmd c = .ok i := by
      unfold decode Instr.ofFields
      cases Cmd.ofFields (CmdFields.ofWord w) <;> simp
    _ ↔ CmdFields.ofWord w = i.toCmd.toFields := by
      simp only [Cmd.ofFields_eq_ok_iff, Instr.ofCmd_eq_ok_iff, exists_eq_right]
    _ ↔ w = encode i := CmdFields.ofWord_eq_iff

/-- Settles O3: the encoder's layers undo the decoder's, word to fields, fields to command, command to instruction. -/
theorem decodeAcceptsExactlyTheEncodedWords : Obligations.DecodeAcceptsExactlyTheEncodedWords :=
  fun _ _ => decode_eq_ok_iff

/-- Settles O2, by O3 at the instruction's own word. -/
theorem decodeOfEncodeIsTheInstruction : Obligations.DecodeOfEncodeIsTheInstruction :=
  fun _ => decode_eq_ok_iff.mpr rfl

/-- Settles O1: each word is the encoder's word of its row. -/
theorem wordsDecodeToTheirRows : Obligations.WordsDecodeToTheirRows := by
  unfold Obligations.WordsDecodeToTheirRows
  simp only [decode_eq_ok_iff]
  decide

end Sys2Proof

/-! PROOFS. What a command does to the record (R67 column RAW, R113), and the commands that use neither `RM` nor `TP` (R67). -/

namespace Sys2Proof

theorem Fmt.p_injective {F G : Fmt} (h : F.p = G.p) : F = G := by
  cases F <;> cases G <;> simp_all [Fmt.p]

namespace Machine

variable {F G : Fmt} {T : IntType} {m : RMode} {tp : BitVec 1} {a b c : Word} {s t : State} {cmd : Cmd} {d : Completion}

/-! ### What the result functions do to the record -/

/-- The completion invalidates the record or writes a valid one of format `F`. -/
inductive Completion.RecordsIn (F : Fmt) (d : Completion) : Prop
  | invalidates (h : d.record = .invalidate)
  | writes (r : Raw) (h : d.record = .write r) (hvalid : r.valid = true) (hfmt : r.fmt = F)

@[simp] theorem recordsIn_special {v : Word} : (special v).RecordsIn F := .invalidates rfl

@[simp] theorem recordsIn_specialRaising {f : Flag} {v : Word} : (specialRaising f v).RecordsIn F := .invalidates rfl

@[simp] theorem recordsIn_invalidOp : (invalidOp G).RecordsIn F := .invalidates rfl

@[simp] theorem recordsIn_nanPath {xs : List Word} : (nanPath G xs).RecordsIn F := .invalidates rfl

@[simp] theorem recordsIn_nanConvert : (nanConvert G F a).RecordsIn F := .invalidates rfl

/-- The rounding pass leaves the record of the format it rounds to (R105). -/
@[simp] theorem recordsIn_roundPack {sign st : Bool} {N : Nat} {e : Int} :
    (roundPack F m tp sign N e st).RecordsIn F := .writes _ rfl rfl rfl

@[simp] theorem recordsIn_sumResult {s1 s2 : Bool} {M1 e1 M2 e2 : Int} :
    (sumResult F m tp s1 s2 M1 e1 M2 e2).RecordsIn F := by
  unfold sumResult
  extract_lets
  split_ifs <;> simp

@[simp] theorem recordsIn_addNumbers : (addNumbers F m tp a b).RecordsIn F := by
  unfold addNumbers
  extract_lets
  split_ifs <;> simp

theorem recordsIn_addResult : (addResult F m tp a b).RecordsIn F := by
  unfold addResult
  split_ifs <;> simp

theorem recordsIn_subResult : (subResult F m tp a b).RecordsIn F := by
  unfold subResult
  split_ifs <;> simp

theorem recordsIn_mulResult : (mulResult F m tp a b).RecordsIn F := by
  unfold mulResult
  extract_lets
  split_ifs <;> simp

theorem recordsIn_divResult : (divResult F m tp a b).RecordsIn F := by
  unfold divResult
  extract_lets
  split_ifs <;> simp

theorem recordsIn_remResult : (remResult F m tp a b).RecordsIn F := by
  unfold remResult
  extract_lets
  split_ifs <;> simp

theorem recordsIn_sqrtResult : (sqrtResult F m tp a).RecordsIn F := by
  unfold sqrtResult
  extract_lets
  split_ifs <;> simp

theorem recordsIn_fmaResult : (fmaResult F m tp a b c).RecordsIn F := by
  unfold fmaResult
  extract_lets
  split_ifs <;> simp

theorem recordsIn_narrowResult : (narrowResult F G m tp a).RecordsIn G := by
  unfold narrowResult
  split_ifs <;> simp

/-- A widening is exact and invalidates the record (R153). -/
theorem widenResult_record : (widenResult F G m tp a).record = .invalidate := by
  unfold widenResult
  split_ifs <;> rfl

/-- The record of the rounding pass of `I2F` is not kept (R113). -/
theorem i2fResult_record {v : Int} : (i2fResult F m tp v).record = .invalidate := by
  unfold i2fResult
  split <;> rfl

/-! ### What a command does to the record -/

/-- Column RAW of R67: the record is invalidated, kept by `SCALED` alone, or written in the format of the result. -/
inductive RecordEffect (c : Cmd) (d : Completion) : Prop
  | invalidates (h : d.record = .invalidate) (hc : ∀ F, c ≠ .scaled F)
  | keeps (F : Fmt) (h : d.record = .keep) (hc : c = .scaled F)
  | writes (r : Raw) (h : d.record = .write r) (hvalid : r.valid = true) (hc : c.writesRecord = true)
      (hfmt : c.resultFmt = some r.fmt)

theorem Completion.RecordsIn.effect (h : d.RecordsIn F) (hw : cmd.writesRecord = true)
    (hf : cmd.resultFmt = some F) : RecordEffect cmd d := by
  cases h with
  | invalidates h => exact .invalidates h (by rintro G rfl; cases hw)
  | writes r h hvalid hfmt => exact .writes r h hvalid hw (hfmt ▸ hf)

theorem arith_recordEffect {op : ArithOp} (h : runCmd (.arith op F) s = .next t) :
    ∃ d, t = s.complete d ∧ RecordEffect (.arith op F) d := by
  have ok : ∀ {d : Completion}, d.RecordsIn F → RecordEffect (.arith op F) d := fun hd => hd.effect rfl rfl
  cases op with
  | add => exact runBinaryRounding_leaves h fun _ _ _ _ _ _ => ok recordsIn_addResult
  | sub => exact runBinaryRounding_leaves h fun _ _ _ _ _ _ => ok recordsIn_subResult
  | mul => exact runBinaryRounding_leaves h fun _ _ _ _ _ _ => ok recordsIn_mulResult
  | div => exact runBinaryRounding_leaves h fun _ _ _ _ _ _ => ok recordsIn_divResult
  | rem => exact runBinaryRounding_leaves h fun _ _ _ _ _ _ => ok recordsIn_remResult
  | sqrt => exact runUnaryRounding_leaves h fun _ _ _ _ => ok recordsIn_sqrtResult
  | fma => exact runTernaryRounding_leaves h fun _ _ _ _ _ _ _ _ => ok recordsIn_fmaResult

theorem cmp_recordEffect {op : CmpOp} (h : runCmd (.cmp op F) s = .next t) :
    ∃ d, t = s.complete d ∧ RecordEffect (.cmp op F) d := by
  have ok : ∀ rel signalling a b, RecordEffect (.cmp op F) (compareResult F rel signalling a b) :=
    fun _ _ _ _ => .invalidates plain_compareResult.2 nofun
  cases op <;> exact runBinary_leaves h fun _ _ _ _ => ok _ _ _ _

theorem f2f_recordEffect (hFG : F ≠ G) (h : runCmd (.f2f F G) s = .next t) :
    ∃ d, t = s.complete d ∧ RecordEffect (.f2f F G) d := by
  simp only [runCmd] at h
  split at h
  case isTrue => exact runUnaryRounding_leaves h fun _ _ _ _ => .invalidates widenResult_record nofun
  case isFalse hp =>
    have hlt : G.p < F.p := lt_of_le_of_ne (not_lt.mp hp) fun hp => hFG (Fmt.p_injective hp.symm)
    exact runUnaryRounding_leaves h fun _ _ _ _ => recordsIn_narrowResult.effect (decide_eq_true hlt) rfl

theorem runCmd_recordEffect (hc : cmd.wellFormed = true) (h : runCmd cmd s = .next t) :
    ∃ d, t = s.complete d ∧ RecordEffect cmd d := by
  cases cmd with
  | arith op F => exact arith_recordEffect h
  | i2f T F => exact runIntRounding_leaves h fun _ _ _ => .invalidates i2fResult_record nofun
  | f2i F T => exact runUnaryRounding_leaves h fun _ _ _ _ => .invalidates plain_f2iCore.2 nofun
  | f2iRmm F T => exact runUnary_leaves h fun _ _ => .invalidates plain_f2iCore.2 nofun
  | f2f F G => exact f2f_recordEffect (by simpa [Cmd.wellFormed] using hc) h
  | cmp op F => exact cmp_recordEffect h
  | issnan F => exact runUnary_leaves h fun _ _ => .invalidates plain_issnanResult.2 nofun
  | scaled F =>
    obtain ⟨_, _, _, _, rfl⟩ := runScaled_eq_next.mp h
    exact ⟨_, rfl, .keeps F rfl rfl⟩

theorem exec_recordEffect {i : Instr} (h : exec i s = .next t) : ∃ d, t = s.complete d ∧ RecordEffect i.toCmd d :=
  runCmd_recordEffect (toCmd_wellFormed i) (exec_eq_runCmd i s ▸ h)

/-- Settles O21, by the three effects a command can have on the record. -/
theorem recordEffectOfCommands : Obligations.RecordEffectOfCommands := by
  intro i s t h
  obtain ⟨d, rfl, hd⟩ := exec_recordEffect h
  rw [State.complete_raw]
  cases hd with
  | invalidates h hc =>
    rw [h]
    exact ⟨fun F hF => absurd hF (hc F), fun _ _ => rfl, fun _ => .inl rfl, fun _ => rfl⟩
  | keeps F h hc =>
    rw [h, hc]
    exact ⟨fun _ _ => rfl, fun _ hF => absurd rfl (hF F), nofun, fun hv => by rw [← hv]; rfl⟩
  | writes r h hvalid hc hfmt =>
    rw [h]
    refine ⟨fun F hF => ?_, fun hn => ?_, fun _ => .inr hfmt.symm, fun hv => ?_⟩
    · rw [hF] at hc; cases hc
    · rw [hc] at hn; cases hn
    · rw [RecordUpdate.apply_write, hvalid] at hv; cases hv

/-! ### Commands that do not use `RM` -/

/-- Settles O24: the shapes of a command that does not use `RM` take nothing but operands and the record. -/
theorem commandsWithoutRmIgnoreTheEnvironment : Obligations.CommandsWithoutRmIgnoreTheEnvironment := by
  intro i s t rm tp hrm h
  rw [exec_eq_runCmd] at h ⊢
  cases shape i.toCmd with
  | unary F f run =>
    rw [run] at h ⊢
    obtain ⟨hw, ha, rfl⟩ := runUnary_eq_next.mp h
    exact runUnary_eq_next.mpr ⟨hw, ha, rfl⟩
  | binary F f run =>
    rw [run] at h ⊢
    obtain ⟨ha, hb, rfl⟩ := runBinary_eq_next.mp h
    exact runBinary_eq_next.mpr ⟨ha, hb, rfl⟩
  | scaled F run =>
    rw [run] at h ⊢
    obtain ⟨hw, hvalid, hfmt, hexp, rfl⟩ := runScaled_eq_next.mp h
    exact runScaled_eq_next.mpr ⟨hw, hvalid, hfmt, hexp, rfl⟩
  | unaryRounding F f run mode => simp [mode] at hrm
  | binaryRounding F f run mode => simp [mode] at hrm
  | ternaryRounding F f run mode => simp [mode] at hrm
  | intRounding T f run mode => simp [mode] at hrm

end Machine
end Sys2Proof

/-! PROOFS. NaNs: the class of a quieted NaN (R89), the selection of one from several operands (R90), and the NaN path that
every arithmetic command tests first (R91). -/

namespace Sys2Proof.Machine

variable {F : Fmt} {s : State} {x y : Word} {xs ys : List Word} {n : Nat}

/-- Settles O26: each named pattern, computed. -/
theorem namedPatternsHaveTheirValues : Obligations.NamedPatternsHaveTheirValues := by
  unfold Obligations.NamedPatternsHaveTheirValues
  decide

/-! ### Quieting -/

/-- The exponent field and integer bit of the NaNs and infinities of a format (R83, R85). -/
def HasMaxExponent (F : Fmt) (x : Word) : Prop := bexpOf F x = F.expMax ∧ (F = .x80 → x.toNat.testBit 63 = true)

theorem sigOf_x80_testBit_63 (x : Word) : (sigOf .x80 x).testBit 63 = x.toNat.testBit 63 := testBit_63_mod x.toNat

theorem hasMaxExponent_of_isNaN (h : isNaN F x = true) : HasMaxExponent F x := by
  have hclass : classOf F x = .qnan ∨ classOf F x = .snan := by simpa [isNaN] using h
  unfold HasMaxExponent
  cases F
  case x80 =>
    simp only [classOf, Fmt.explicitLead, if_true, classX80, sigOf_x80_testBit_63] at hclass
    split_ifs at hclass <;> simp_all
  all_goals
    simp only [classOf, Fmt.explicitLead, classHidden] at hclass
    split_ifs at hclass <;> simp_all

/-- With the largest exponent field, the top fraction bit makes a quiet NaN (R83, R85). -/
theorem classOf_eq_qnan (h : HasMaxExponent F x) (hquiet : (fracOf F x).testBit (F.t - 1) = true) :
    classOf F x = .qnan := by
  obtain ⟨hexp, hlead⟩ := h
  have hmax : F.expMax ≠ 0 := by cases F <;> decide
  have hfrac : fracOf F x ≠ 0 := fun h0 => by simp [h0] at hquiet
  cases F
  case x80 =>
    have hquiet : (fracOf .x80 x).testBit 62 = true := hquiet
    simp [classOf, Fmt.explicitLead, classX80, sigOf_x80_testBit_63, hexp, hlead, hmax, hfrac, hquiet]
  all_goals simp [classOf, Fmt.explicitLead, classHidden, hexp, hmax, hfrac, hquiet]

theorem quietBit_lt (F : Fmt) : 2 ^ (F.t - 1) < 2 ^ F.k :=
  Nat.pow_lt_pow_right (by decide) (by have := F.k_eq; have := F.t_le_sigW; omega)

theorem toNat_quiet (F : Fmt) (x : Word) : (quiet F x).toNat = x.toNat ||| 2 ^ (F.t - 1) := by
  rw [quiet, BitVec.toNat_or, toNat_ofNat_of_lt F.k_le (quietBit_lt F)]

/-- Quieting sets the top fraction bit and no other. -/
theorem testBit_quiet (F : Fmt) (x : Word) (i : Nat) :
    (quiet F x).toNat.testBit i = (x.toNat.testBit i || decide (F.t - 1 = i)) := by
  rw [toNat_quiet, Nat.testBit_or, Nat.testBit_two_pow]

@[simp] theorem signOf_quiet (F : Fmt) (x : Word) : signOf F (quiet F x) = signOf F x := by
  have hne : F.t - 1 ≠ F.k - 1 := by cases F <;> decide
  simp [signOf, testBit_quiet, hne]

@[simp] theorem bexpOf_quiet (F : Fmt) (x : Word) : bexpOf F (quiet F x) = bexpOf F x := by
  have h0 : (2 ^ (F.t - 1)) >>> F.sigW = 0 := by cases F <;> decide
  rw [bexpOf, bexpOf, toNat_quiet, ← Nat.shiftRight_eq_div_pow, Nat.shiftRight_or_distrib, h0, Nat.or_zero,
    Nat.shiftRight_eq_div_pow]

theorem quiet_lt (h : x.toNat < 2 ^ F.k) : (quiet F x).toNat < 2 ^ F.k :=
  toNat_quiet F x ▸ Nat.or_lt_two_pow h (quietBit_lt F)

/-- `Quiet` of a NaN is a quiet NaN (R89). -/
theorem classOf_quiet (h : isNaN F x = true) : classOf F (quiet F x) = .qnan := by
  obtain ⟨hexp, hlead⟩ := hasMaxExponent_of_isNaN h
  refine classOf_eq_qnan ⟨(bexpOf_quiet F x).trans hexp, fun hF => ?_⟩ ?_
  · simp [testBit_quiet, hlead hF]
  · have ht : 0 < F.t := by cases F <;> decide
    simp [fracOf, testBit_quiet, ht]

/-! ### The pattern of a sign and a magnitude -/

theorem two_pow_k (F : Fmt) : 2 ^ F.k = 2 ^ (F.k - 1) + 2 ^ (F.k - 1) := by
  rw [← two_mul, ← pow_succ', Nat.sub_add_cancel F.k_pos]

/-- A pattern of `k` bits is its sign bit and its magnitude (R81, R82). -/
theorem toNat_eq_sign_add_mag (h : x.toNat < 2 ^ F.k) :
    x.toNat = (if signOf F x then 2 ^ (F.k - 1) else 0) + magOf F x := by
  have hdiv := Nat.div_add_mod x.toNat (2 ^ (F.k - 1))
  have hlt : x.toNat / 2 ^ (F.k - 1) < 2 := by
    rw [Nat.div_lt_iff_lt_mul (Nat.two_pow_pos _), two_mul]
    exact two_pow_k F ▸ h
  rw [signOf, Nat.testBit_eq_decide_div_mod_eq, Nat.mod_eq_of_lt hlt, magOf]
  obtain h0 | h1 := Nat.le_one_iff_eq_zero_or_eq_one.mp (Nat.lt_succ_iff.mp hlt)
  · rw [h0] at hdiv ⊢
    simpa using hdiv.symm
  · rw [h1] at hdiv ⊢
    simpa using hdiv.symm

/-! ### The selection -/

theorem mem_nanCands : y ∈ nanCands F xs ↔ ∃ x ∈ xs, isNaN F x = true ∧ quiet F x = y := by
  simp [nanCands, and_assoc]

theorem maxMag_le_iff : maxMag F ys ≤ n ↔ ∀ y ∈ ys, magOf F y ≤ n := by
  induction ys with
  | nil => simp [maxMag]
  | cons y ys ih =>
    rw [List.forall_mem_cons, ← ih]
    exact max_le_iff

theorem magOf_le_maxMag (h : y ∈ ys) : magOf F y ≤ maxMag F ys := maxMag_le_iff.mp le_rfl y h

/-- The selected NaN is a candidate of the largest magnitude, and negative only when every such candidate is (R90). -/
structure IsSelection (F : Fmt) (ys : List Word) (r : Word) : Prop where
  mem : r ∈ ys
  mag : magOf F r = maxMag F ys
  sign : signOf F r = true → ∀ y ∈ ys, magOf F y = maxMag F ys → signOf F y = true

theorem isSelection_nanSelect (hx : ∀ x ∈ xs, x.toNat < 2 ^ F.k) (hnan : ∃ x ∈ xs, isNaN F x = true) :
    IsSelection F (nanCands F xs) (nanSelect F xs) := by
  have hpat : ∀ y ∈ nanCands F xs, BitVec.ofNat 128 ((if signOf F y then 2 ^ (F.k - 1) else 0) + magOf F y) = y := by
    intro y hy
    obtain ⟨x, hmem, _, rfl⟩ := mem_nanCands.mp hy
    rw [← toNat_eq_sign_add_mag (quiet_lt (hx x hmem)), BitVec.ofNat_toNat, BitVec.setWidth_eq]
  unfold nanSelect
  extract_lets ys m
  split
  · rename_i hpos
    obtain ⟨y, hy, hym⟩ := List.any_eq_true.mp hpos
    obtain ⟨hmag, hsign⟩ : magOf F y = m ∧ signOf F y = false := by simpa using hym
    have hr : BitVec.ofNat 128 m = y := by simpa [hmag, hsign] using hpat y hy
    rw [hr]
    exact ⟨hy, hmag, by simp [hsign]⟩
  · rename_i hneg
    have hall : ∀ y ∈ ys, magOf F y = m → signOf F y = true := by simpa using hneg
    obtain ⟨x, hmem, hxnan⟩ := hnan
    have hne : ys ≠ [] := List.ne_nil_of_mem (mem_nanCands.mpr ⟨x, hmem, hxnan, rfl⟩)
    obtain ⟨y, hy, hmag⟩ := exists_magOf_eq_maxMag (F := F) hne
    have hr : BitVec.ofNat 128 (2 ^ (F.k - 1) + m) = y := by simpa [hmag, hall y hy hmag] using hpat y hy
    rw [hr]
    exact ⟨hy, hmag, fun _ => hall⟩

theorem maxMag_perm (h : xs.Perm ys) : maxMag F xs = maxMag F ys :=
  eq_of_forall_ge_iff fun n => by simp only [maxMag_le_iff, h.mem_iff]

/-- The selection sees the operands through their largest magnitude and an existence test only. -/
theorem nanSelect_perm (h : xs.Perm ys) : nanSelect F xs = nanSelect F ys := by
  have hc : (nanCands F xs).Perm (nanCands F ys) := (h.filter _).map _
  simp only [nanSelect, maxMag_perm hc, hc.any_eq]

/-- Settles O27: the result is one of the candidates, which are quieted operands. -/
theorem nanSelectionIsLargestQuietedOperand : Obligations.NanSelectionIsLargestQuietedOperand := by
  intro F xs hx hnan
  obtain ⟨hmem, hmag, hsign⟩ := isSelection_nanSelect hx hnan
  obtain ⟨x, hxs, hxnan, hsel⟩ := mem_nanCands.mp hmem
  have hcand : ∀ y ∈ xs, isNaN F y = true → quiet F y ∈ nanCands F xs := fun y hy hynan =>
    mem_nanCands.mpr ⟨y, hy, hynan, rfl⟩
  refine ⟨⟨x, hxs, hxnan, hsel.symm⟩, fun y hy hynan => ?_, fun y hy hynan hmagy hneg => ?_, ?_,
    fun ys h => (nanSelect_perm h).symm, List.any_eq_true⟩
  · rw [hmag]
    exact magOf_le_maxMag (hcand y hy hynan)
  · rw [← signOf_quiet]
    exact hsign hneg _ (hcand y hy hynan) (hmagy.trans hmag)
  · rw [← hsel]
    exact classOf_quiet hxnan

/-! ### The NaN path -/

theorem runUnaryRounding_ready {m : RMode} {f : RMode → BitVec 1 → Word → Completion}
    (hm : RMode.ofBits s.rm = some m) (ha : OperandOk F s.opa) :
    runUnaryRounding F f s = .next (s.complete (f m s.tp (operandOf F s.opa))) :=
  runUnaryRounding_eq_next.mpr ⟨m, hm, runUnary_eq_next.mpr ⟨ha.1, ha.2, rfl⟩⟩

theorem runBinaryRounding_ready {m : RMode} {f : RMode → BitVec 1 → Word → Word → Completion}
    (hm : RMode.ofBits s.rm = some m) (ha : OperandOk F s.opa) (hb : OperandOk F s.opb) :
    runBinaryRounding F f s = .next (s.complete (f m s.tp (operandOf F s.opa) (operandOf F s.opb))) :=
  runBinaryRounding_eq_next.mpr ⟨m, hm, runBinary_eq_next.mpr ⟨ha, hb, rfl⟩⟩

theorem runTernaryRounding_ready {m : RMode} {f : RMode → BitVec 1 → Word → Word → Word → Completion}
    (hm : RMode.ofBits s.rm = some m) (ha : OperandOk F s.opa) (hb : OperandOk F s.opb) (hc : OperandOk F s.opc) :
    runTernaryRounding F f s =
      .next (s.complete (f m s.tp (operandOf F s.opa) (operandOf F s.opb) (operandOf F s.opc))) :=
  runTernaryRounding_eq_next.mpr ⟨m, hm, ha, hb, hc, rfl⟩

/-- A binary operation whose first test is for a NaN operand. -/
theorem runBinaryRounding_nan {f : RMode → BitVec 1 → Word → Word → Completion}
    (hf : ∀ m tp a b, (isNaN F a || isNaN F b) = true → f m tp a b = nanPath F [a, b])
    {m : RMode} (hm : RMode.ofBits s.rm = some m) (ha : OperandOk F s.opa) (hb : OperandOk F s.opb)
    (hnan : [operandOf F s.opa, operandOf F s.opb].any (isNaN F) = true) :
    runBinaryRounding F f s = .next (s.complete (nanPath F [operandOf F s.opa, operandOf F s.opb])) := by
  rw [runBinaryRounding_ready hm ha hb, hf _ _ _ _ (by simpa using hnan)]

/-- Settles O28, operation by operation: the NaN test is the first of each result function. -/
theorem arithmeticNanPath : Obligations.ArithmeticNanPath := by
  intro i s op F hi hok xs hnan
  rw [exec_of_toCmd hi]
  rw [hi] at hok
  obtain ⟨hrm, hops, _⟩ := hok
  obtain ⟨m, hm⟩ := ofBits_of_lt (hrm rfl)
  cases op with
  | sqrt =>
    obtain ⟨ha, _⟩ := hops
    refine (runUnaryRounding_ready hm ha).trans ?_
    rw [sqrtResult, if_pos (by simpa [xs] using hnan)]
    rfl
  | fma =>
    obtain ⟨ha, hb, hc⟩ := hops
    refine (runTernaryRounding_ready hm ha (hb (by decide)) (hc (by decide))).trans ?_
    rw [fmaResult, if_pos (by simpa [xs, or_assoc] using hnan)]
    rfl
  | _ =>
    obtain ⟨ha, hb, _⟩ := hops
    exact runBinaryRounding_nan (fun _ _ _ _ h => if_pos h) hm ha (hb (by decide)) hnan

end Sys2Proof.Machine

/-! PROOFS. The rounding pass over the integers: the rules of `RoundInt` and `ShiftRightGS` (R101) and the overflow
table (R106). -/

namespace Sys2Proof.Machine

variable {F : Fmt} {m : RMode} {sign st : Bool} {tp : BitVec 1} {N : Nat} {e : Int}

/-- When `RoundInt` increments, mode by mode (R101). -/
theorem roundInt_incremented_iff (m : RMode) (sign : Bool) (q : Nat) (g s : Bool) :
    (roundInt m sign ⟨q, g, s⟩).incremented = true ↔
      match m with
      | .ne => g = true ∧ (s = true ∨ q % 2 = 1)
      | .minmag => False
      | .min => sign = true ∧ (g = true ∨ s = true)
      | .max => sign = false ∧ (g = true ∨ s = true)
      | .nmm => g = true
      | .stk => (g = true ∨ s = true) ∧ q % 2 = 0 := by
  cases m <;> simp [roundInt]

theorem cutAt_of_pos {sh : Nat} (h : 1 ≤ sh) (N : Nat) (st : Bool) :
    cutAt N sh st = ⟨N / 2 ^ sh, N / 2 ^ (sh - 1) % 2 == 1, N % 2 ^ (sh - 1) != 0 || st⟩ := by
  rw [cutAt, if_neg (by omega)]
  rfl

/-- Settles O29: the result of `RoundInt` is `q + 1` or `q` as it increments or not, and the cut is its definition. -/
theorem roundIntFollowsItsRule : Obligations.RoundIntFollowsItsRule := by
  refine ⟨fun m sign q g s => ⟨rfl, ?_, ?_, roundInt_incremented_iff m sign q g s⟩, fun N sh st h => ?_⟩
  · rw [roundInt_q]
    split <;> simp_all
  · rw [roundInt_q]
    split <;> simp_all
  · rw [cutAt_of_pos h]
    simp

theorem isTiny_of_le {E Eu : Int} (hE : F.emin ≤ E) (hEu : E ≤ Eu) : isTiny F tp E Eu = false := by
  unfold isTiny
  split <;> rw [decide_eq_false_iff_not] <;> omega

/-- On overflow the rounding pass raises nothing beside the row's flags (R106). -/
theorem roundPack_of_overflow (hlo : F.emin ≤ unroundedExp N e) (hhi : F.emax < (roundUnbounded F m sign N e st).Eu) :
    (roundPack F m tp sign N e st).res = (deliverOverflow F m sign).res ∧
      (roundPack F m tp sign N e st).fl = (deliverOverflow F m sign).fl := by
  simp [roundPack, hlo, hhi, isTiny_of_le hlo roundUnbounded_Eu_bounds.1, raiseIf]

/-- Settles O30: the table is `overflowsToInf`, row by row. -/
theorem overflowDeliversTheTable : Obligations.OverflowDeliversTheTable := by
  intro F m tp sign N e st _ hlo hhi
  obtain ⟨hres, hfl⟩ := roundPack_of_overflow (tp := tp) hlo hhi
  dsimp only
  rw [hres, hfl]
  cases m <;> cases sign <;> exact ⟨rfl, rfl⟩

end Sys2Proof.Machine

/-! PROOFS. The rounding pass over the integers is the rounding of a real number: the magnitude an exact intermediate stands
for (R100), a real number cut at a binary place (R101), and the passes of R103 and R108 over each. -/

namespace Sys2Proof.Machine

variable {F : Fmt} {m : RMode} {sign st : Bool} {tp : BitVec 1} {N : Nat} {e sh : Int} {x y : ℝ} {c : Cut}

/-! ### The exact intermediate -/

/-- What the sticky stands for: a part below the last bit of `N`, not zero exactly when the sticky is set (R100). -/
theorem StandsFor.exists_tail (h : StandsFor F N e st x) :
    ∃ ε : ℝ, x = (N + ε) * 2 ^ e ∧ 0 ≤ ε ∧ ε < 1 ∧ (st = true ↔ ε ≠ 0) := by
  have h2 : (0 : ℝ) < 2 ^ e := by positivity
  obtain ⟨-, h⟩ := h
  cases st with
  | false => exact ⟨0, by simpa using h, le_rfl, one_pos, by simp⟩
  | true =>
    obtain ⟨-, hlo, hhi⟩ : F.p + 2 ≤ bitlen N ∧ (N : ℝ) * 2 ^ e < x ∧ x < ((N : ℝ) + 1) * 2 ^ e := h
    rw [← lt_div_iff₀ h2] at hlo
    rw [← div_lt_iff₀ h2] at hhi
    refine ⟨x / 2 ^ e - N, ?_, by linarith, by linarith, iff_of_true rfl (by linarith)⟩
    rw [add_sub_cancel, div_mul_cancel₀ _ h2.ne']

/-- `2^E ≤ x < 2^(E+1)`: the exponent of the unrounded value is that of the real number (R103). -/
theorem StandsFor.unroundedExp_eq (h : StandsFor F N e st x) : unroundedExp N e = Int.log 2 x := by
  have hN := h.1
  have hb := bitlen_pos hN
  have h2 : (0 : ℝ) < 2 ^ e := by positivity
  obtain ⟨ε, rfl, h0, h1, -⟩ := h.exists_tail
  have hpos : 0 < ((N : ℝ) + ε) * 2 ^ e := by
    have : (0 : ℝ) < N := by exact_mod_cast hN
    positivity
  have hlo : (2 : ℝ) ^ (bitlen N - 1) ≤ N := by exact_mod_cast two_pow_bitlen_le hN
  have hhi : (N : ℝ) + 1 ≤ 2 ^ bitlen N := by exact_mod_cast lt_two_pow_bitlen N
  refine le_antisymm ((Int.zpow_le_iff_le_log one_lt_two hpos).mp ?_)
    (Int.lt_add_one_iff.mp ((Int.lt_zpow_iff_log_lt one_lt_two hpos).mp ?_))
  · rw [show unroundedExp N e = ((bitlen N - 1 : Nat) : Int) + e by unfold unroundedExp; omega, Nat.cast_ofNat,
      zpow_add₀ two_ne_zero, zpow_natCast]
    exact mul_le_mul_of_nonneg_right (by linarith) h2.le
  · rw [show unroundedExp N e + 1 = (bitlen N : Int) + e by unfold unroundedExp; omega, Nat.cast_ofNat,
      zpow_add₀ two_ne_zero, zpow_natCast]
    exact mul_lt_mul_of_pos_right (by linarith) h2

/-- A sticky comes with more bits than the format keeps (R100). -/
theorem StandsFor.lt_bitlen (h : StandsFor F N e st x) (hst : st = true) : F.p < bitlen N := by
  obtain ⟨-, h⟩ := h
  rw [if_pos hst] at h
  omega

/-! ### A real number cut at its units place -/

theorem Rounded.ext_fields {a b : Rounded} (hq : a.q = b.q) (hix : a.inexact = b.inexact)
    (hinc : a.incremented = b.incremented) : a = b := by
  cases a
  simp_all

theorem refRound_q (m : RMode) (sign : Bool) (y : ℝ) :
    (refRound m sign y).q = ⌊y⌋₊ + (if (refRound m sign y).incremented then 1 else 0) := by
  unfold refRound
  dsimp only
  split_ifs <;> simp_all

/-- `c` is `y` cut at the units place: the integer part, the bit of weight one half, and whether anything is left (R101). -/
def Cut.Of (c : Cut) (y : ℝ) : Prop :=
  ∃ r : ℝ, y = c.q + (if c.g then 1 / 2 else 0) + r ∧ 0 ≤ r ∧ r < 1 / 2 ∧ (c.s = true ↔ r ≠ 0)

/-- Guard and sticky tell whether the discarded part is zero, below, at or above one half, which is all that any mode asks
(R114). -/
theorem Cut.Of.roundInt_eq (h : c.Of y) (m : RMode) (sign : Bool) : roundInt m sign c = refRound m sign y := by
  obtain ⟨q, g, s⟩ := c
  obtain ⟨r, hy, h0, h1, hs⟩ := h
  dsimp only at hy hs
  have hfrac : y - q = (if g then 1 / 2 else 0) + r := by rw [hy]; ring
  have hfloor : ⌊y⌋₊ = q := by
    rw [Nat.floor_eq_iff (by rw [hy]; positivity)]
    cases g <;> simp at hfrac <;> constructor <;> linarith
  have hne : y - q ≠ 0 ↔ g = true ∨ s = true := by
    rw [hfrac, hs]
    cases g
    · simp
    · exact iff_of_true (by simp; linarith) (.inl rfl)
  have hgt : 1 / 2 < y - q ↔ g = true ∧ s = true := by
    rw [hfrac, hs]
    cases g
    · simpa using h1.le
    · simpa using h0.lt_iff_ne'
  have heq : y - q = 1 / 2 ↔ g = true ∧ s = false := by
    rw [hfrac, ← Bool.not_eq_true, hs, not_not]
    cases g
    · simpa using h1.ne
    · simp
  have hge : 1 / 2 ≤ y - q ↔ g = true := by
    rw [le_iff_lt_or_eq, eq_comm, hgt, heq]
    cases s <;> simp
  have hup : (roundInt m sign ⟨q, g, s⟩).incremented = (refRound m sign y).incremented := by
    rw [Bool.eq_iff_iff, roundInt_incremented_iff]
    cases m <;> simp only [refRound, hfloor, hne, hgt, heq, hge, decide_eq_true_iff]
    cases s <;> simp
  have hix : (roundInt m sign ⟨q, g, s⟩).inexact = (refRound m sign y).inexact := by
    simp [refRound, hfloor, hne, roundInt_inexact]
  refine Rounded.ext_fields ?_ hix hup
  rw [roundInt_q, refRound_q, hup, hfloor]

/-- `ShiftRightGS`, and the exact shift to the left, cut the real number at the place shifted to (R101). -/
theorem StandsFor.cutAt_of (h : StandsFor F N e st x) (hsh : st = true → 0 < sh) :
    (cutAt N sh st).Of (x / 2 ^ (e + sh)) := by
  have h2 : (2 : ℝ) ^ e ≠ 0 := by positivity
  obtain ⟨ε, rfl, h0, h1, hst⟩ := h.exists_tail
  have hy : (N + ε) * 2 ^ e / (2 : ℝ) ^ (e + sh) = (N + ε) / 2 ^ sh := by
    rw [zpow_add₀ two_ne_zero, mul_comm, mul_div_mul_left _ _ h2]
  rw [hy]
  obtain hle | hpos := le_or_gt sh 0
  · have hε : ε = 0 := by
      by_contra hne
      exact absurd (hsh (hst.mpr hne)) (not_lt.mpr hle)
    obtain ⟨n, rfl⟩ : ∃ n : Nat, sh = -n := ⟨(-sh).toNat, by omega⟩
    rw [cutAt_of_nonpos st hle]
    refine ⟨0, ?_, le_rfl, by norm_num, by simp⟩
    simp [hε]
  · obtain ⟨n, rfl⟩ : ∃ n : Nat, sh = (n + 1 : Nat) := ⟨(sh - 1).toNat, by omega⟩
    rw [cutAt_of_pos (by omega), Nat.add_sub_cancel, zpow_natCast]
    have hsplit : N = 2 ^ (n + 1) * (N / 2 ^ (n + 1)) + 2 ^ n * (N / 2 ^ n % 2) + N % 2 ^ n := by
      rw [add_assoc, add_comm (2 ^ n * _), ← Nat.mod_pow_succ, Nat.div_add_mod]
    have hlt : ((N % 2 ^ n : Nat) : ℝ) + 1 ≤ 2 ^ n := by exact_mod_cast Nat.mod_lt N (Nat.two_pow_pos n)
    refine ⟨((N % 2 ^ n : Nat) + ε) / 2 ^ (n + 1), ?_, by positivity, ?_, ?_⟩
    · have hguard : ((N / 2 ^ n % 2 : Nat) : ℝ) / 2 = if (N / 2 ^ n % 2 == 1) = true then 1 / 2 else 0 := by
        obtain hbit | hbit := Nat.mod_two_eq_zero_or_one (N / 2 ^ n) <;> simp [hbit]
      have hcast : (N : ℝ) =
          2 ^ (n + 1) * (N / 2 ^ (n + 1) : Nat) + 2 ^ n * (N / 2 ^ n % 2 : Nat) + (N % 2 ^ n : Nat) := by
        exact_mod_cast hsplit
      rw [← hguard, div_eq_iff (by positivity)]
      conv_lhs => rw [hcast]
      field_simp
      ring
    · rw [div_lt_iff₀ (by positivity), pow_succ]
      linarith
    · have hzero : ((N % 2 ^ n : Nat) : ℝ) + ε = 0 ↔ N % 2 ^ n = 0 ∧ ε = 0 := by
        rw [add_eq_zero_iff_of_nonneg (Nat.cast_nonneg _) h0, Nat.cast_eq_zero]
      rw [Ne, div_eq_zero_iff, or_iff_left (by positivity), hzero, not_and_or, Bool.or_eq_true, hst, bne_iff_ne]

/-! ### The rounding pass -/

/-- Cut at a place, rounded: the real number in units of the place, rounded (R101). -/
theorem StandsFor.roundInt_cutAt (h : StandsFor F N e st x) (hsh : st = true → 0 < sh) {g : Int} (hg : e + sh = g) :
    roundInt m sign (cutAt N sh st) = refRound m sign (x / 2 ^ g) :=
  hg ▸ (h.cutAt_of hsh).roundInt_eq m sign

theorem StandsFor.roundUnbounded_eq (h : StandsFor F N e st x) :
    roundUnbounded F m sign N e st = refUnbounded F m sign x := by
  have hround : roundInt m sign (cutAt N ((bitlen N : Int) - F.p) st) =
      refRound m sign (x / 2 ^ (Int.log 2 x - F.p + 1)) :=
    h.roundInt_cutAt (fun hst => by have := h.lt_bitlen hst; omega)
      (by rw [← h.unroundedExp_eq]; unfold unroundedExp; omega)
  simp only [roundUnbounded, refUnbounded, hround, h.unroundedExp_eq]

/-- The subnormal grid is coarser than the last place of a value below the smallest normal, so the sticky stays below its
guard bit too (R111). -/
theorem StandsFor.roundInt_subnormal (h : StandsFor F N e st x) (hE : Int.log 2 x < F.emin) :
    roundInt m sign (cutAt N (F.emin - F.p + 1 - e) st) = refSubnormal F m sign x := by
  refine h.roundInt_cutAt (fun hst => ?_) (by omega)
  have := h.lt_bitlen hst
  rw [← h.unroundedExp_eq, unroundedExp] at hE
  omega

/-- Settles O31: each pass over the intermediate is the pass over the real number, so all that it leaves agrees. -/
theorem roundPackRoundsTheRealNumber : Obligations.RoundPackRoundsTheRealNumber := by
  intro F m tp sign N e st x h
  unfold roundPack refRoundPack
  dsimp only
  rw [h.unroundedExp_eq, h.roundUnbounded_eq]
  by_cases hE : F.emin ≤ Int.log 2 x
  · simp only [if_pos hE]
    rfl
  · simp only [if_neg hE, deliverSubnormal, h.roundInt_subnormal (not_le.mp hE)]
    rfl

end Sys2Proof.Machine

/-! PROOFS. Packed patterns: the fields of a pattern and the pattern of its fields (R81, R82, R87), the finite classes by the
exponent field (R83, R85), and the value a packed pattern has (R84). -/

namespace Sys2Proof

theorem Fmt.expMax_eq (F : Fmt) : F.expMax = 2 * F.bias + 1 := by
  rw [Fmt.expMax, F.two_pow_w, Nat.add_sub_assoc (by decide)]

theorem Fmt.bias_pos (F : Fmt) : 0 < F.bias := by cases F <;> decide

theorem Fmt.two_pow_p (F : Fmt) : 2 ^ F.p = 2 * 2 ^ F.t := by rw [F.p_eq, pow_succ']

namespace Machine

variable {F : Fmt} {x y : Word} {s : Bool} {be q : Nat} {g : Int}

/-! ### Fields of a packed pattern -/

theorem signOf_pack (F : Fmt) (s : Bool) (be f : Nat) : signOf F (pack F s be f) = s := by
  have hk : F.k - 1 = F.sigW + F.w := by have := F.k_eq; omega
  have hf : f % 2 ^ F.sigW < 2 ^ F.sigW := Nat.mod_lt _ (Nat.two_pow_pos _)
  have hbe : be % 2 ^ F.w < 2 ^ F.w := Nat.mod_lt _ (Nat.two_pow_pos _)
  rw [signOf, hk, Nat.testBit_eq_decide_div_mod_eq, pow_add, ← Nat.div_div_eq_div_mul, (toNat_pack F s be f).1, mul_comm,
    Nat.mul_add_div (Nat.two_pow_pos _), Nat.div_eq_of_lt hf, add_zero]
  cases s
  · simp [Nat.div_eq_of_lt hbe]
  · simp [Nat.add_div_left, Nat.div_eq_of_lt hbe]

theorem fracOf_eq_sig (F : Fmt) (x : Word) : fracOf F x = sigOf F x % 2 ^ F.t := by
  rw [fracOf, sigOf, Nat.mod_mod_of_dvd _ (pow_dvd_pow 2 F.t_le_sigW)]

theorem fracOf_pack (F : Fmt) (s : Bool) (be f : Nat) : fracOf F (pack F s be f) = f % 2 ^ F.t := by
  rw [fracOf_eq_sig, sigOf_pack, Nat.mod_mod_of_dvd _ (pow_dvd_pow 2 F.t_le_sigW)]

/-- The last bit of a pattern is that of its significand field. -/
theorem getLsbD_zero_pack (F : Fmt) (s : Bool) (be f : Nat) : (pack F s be f).getLsbD 0 = decide (f % 2 = 1) := by
  have hsig : sigOf F (pack F s be f) % 2 = f % 2 := by
    rw [sigOf_pack, Nat.mod_mod_of_dvd _ (dvd_pow_self 2 (by cases F <;> decide))]
  rw [sigOf, Nat.mod_mod_of_dvd _ (dvd_pow_self 2 (by cases F <;> decide))] at hsig
  rw [← BitVec.testBit_toNat, Nat.testBit_zero, hsig]

/-- A pattern is packed from its own fields (R81, R82, R87). -/
theorem pack_fields (h : y.toNat < 2 ^ F.k) : pack F (signOf F y) (bexpOf F y) (sigOf F y) = y := by
  have hbe : bexpOf F y % 2 ^ F.w = bexpOf F y := Nat.mod_mod _ _
  have hsig : sigOf F y % 2 ^ F.sigW = sigOf F y := Nat.mod_mod _ _
  rw [pack, hbe, hsig, bexpOf_eq_mag, sigOf_eq_mag, add_assoc, Nat.div_add_mod', ← toNat_eq_sign_add_mag h,
    BitVec.ofNat_toNat, BitVec.setWidth_eq]

/-! ### The finite classes -/

/-- The stored field of a canonical pattern: the fraction, and in `X80` the leading bit of a normal value (R82, R85). -/
theorem sigOf_eq_frac (h : classOf F x ≠ .nonCanonical) :
    sigOf F x = (if F.explicitLead = true ∧ bexpOf F x ≠ 0 then 2 ^ F.t else 0) + fracOf F x := by
  have hX : F = .x80 → sigOf .x80 x = (if bexpOf .x80 x ≠ 0 then 2 ^ 63 else 0) + fracOf .x80 x := by
    intro hF
    have hbit := classOf_ne_nonCanonical_iff.mp h hF
    have hsplit : sigOf .x80 x = x.toNat % 2 ^ 63 + 2 ^ 63 * (x.toNat / 2 ^ 63 % 2) := Nat.mod_pow_succ
    rw [hsplit, Nat.add_comm, ← Nat.toNat_testBit]
    by_cases hbe : bexpOf .x80 x = 0
    · simp_all [fracOf, Fmt.t]
    · simp_all [fracOf, Fmt.t]
  cases F
  case x80 => simpa [Fmt.explicitLead, Fmt.t] using hX rfl
  all_goals simp [Fmt.explicitLead, sigOf, fracOf, Fmt.sigW, Fmt.t]

/-- The exponent field tells the finite classes apart (R83, R85). -/
theorem finite_classes (h : classOf F x ≠ .nonCanonical) :
    (classOf F x = .normal ↔ bexpOf F x ≠ 0 ∧ bexpOf F x ≠ F.expMax) ∧
      (classOf F x = .subnormal ↔ bexpOf F x = 0 ∧ fracOf F x ≠ 0) ∧
      (classOf F x = .zero ↔ bexpOf F x = 0 ∧ fracOf F x = 0) := by
  have hsig := sigOf_eq_frac h
  cases F
  case x80 =>
    simp only [classOf, Fmt.explicitLead, if_true, classX80] at h ⊢
    split_ifs at h ⊢ <;> simp_all
  all_goals
    simp only [classOf, Fmt.explicitLead, classHidden]
    split_ifs <;> simp_all

theorem isNumber_iff (h : classOf F x ≠ .nonCanonical) :
    (isFin F x = true ∨ isZero F x = true) ↔ bexpOf F x ≠ F.expMax := by
  have hmax : F.expMax ≠ 0 := by rw [F.expMax_eq]; omega
  obtain ⟨hnormal, hsub, hzero⟩ := finite_classes h
  simp only [isFin, isZero, Bool.or_eq_true, beq_iff_eq, hnormal, hsub, hzero]
  by_cases hbe : bexpOf F x = 0 <;> by_cases hfrac : fracOf F x = 0 <;> simp [hbe, hfrac, hmax.symm]

theorem isInf_of_isNumber (h : isFin F x = true ∨ isZero F x = true) : isInf F x = false := by
  simp only [isFin, isZero, Bool.or_eq_true, beq_iff_eq] at h
  obtain (h | h) | h := h <;> simp [isInf, h]

/-! ### The value of a packed pattern -/

/-- The pattern `w` is the number of sign `s` and magnitude `q * 2^g`, and its last bit is that of `q`. -/
structure Encodes (F : Fmt) (w : Word) (s : Bool) (q : Nat) (g : Int) : Prop where
  number : isFin F w = true ∨ isZero F w = true
  value : valueOf F w = (if s then -1 else 1) * (q * 2 ^ g)
  last : w.getLsbD 0 = decide (q % 2 = 1)

theorem Encodes.abs_value (h : Encodes F x s q g) : |valueOf F x| = q * 2 ^ g := by
  have hnonneg : (0 : ℝ) ≤ q * 2 ^ g := by positivity
  rw [h.value]
  cases s <;> simp [abs_of_nonneg hnonneg]

/-- A significand that carried out is the power of two one place up (R103). -/
theorem Encodes.carry (h : Encodes F x s (2 ^ (F.p - 1)) (g + 1)) : Encodes F x s (2 ^ F.p) g := by
  have heven : 2 ^ F.p % 2 = 2 ^ (F.p - 1) % 2 := by cases F <;> decide
  refine ⟨h.number, ?_, by rw [h.last, heven]⟩
  have htwo : (2 : ℝ) ^ F.p = 2 ^ (F.p - 1) * 2 := by rw [← pow_succ, F.p_eq, Nat.add_sub_cancel]
  rw [h.value, Nat.cast_pow, Nat.cast_pow, Nat.cast_ofNat, htwo, zpow_add_one₀ two_ne_zero, mul_assoc _ (2 : ℝ),
    mul_comm (2 : ℝ) (2 ^ g)]

/-- Under the exponent field 0 the value is the fraction on the subnormal grid, zero included (R84, R108). -/
theorem encodes_pack (hq : q < 2 ^ F.t) : Encodes F (pack F s 0 q) s q (F.emin - F.t) := by
  have hpat : IsPattern F (pack F s 0 q) := isPattern_packSubnormal (by rintro rfl; exact hq)
  have hbe : bexpOf F (pack F s 0 q) = 0 := by rw [bexpOf_pack, Nat.zero_mod]
  have hfrac : fracOf F (pack F s 0 q) = q := by rw [fracOf_pack, Nat.mod_eq_of_lt hq]
  refine ⟨(isNumber_iff hpat.2).mpr (by rw [hbe, F.expMax_eq]; omega), ?_, getLsbD_zero_pack F s 0 q⟩
  rw [valueOf, signOf_pack, intSigOf, intExpOf, if_pos hbe, if_pos hbe, hfrac, mul_assoc]

/-- The significand field without its leading bit, hidden or stored, is the fraction; its last bit is the significand's. -/
theorem significand_field (hlo : 2 ^ F.t ≤ q) (hhi : q < 2 ^ F.p) :
    (if F.explicitLead then q else q - 2 ^ (F.p - 1)) % 2 ^ F.t = q - 2 ^ F.t ∧
      (if F.explicitLead then q else q - 2 ^ (F.p - 1)) % 2 = q % 2 := by
  have hp := F.two_pow_p
  have heven : 2 ^ F.t % 2 = 0 := by cases F <;> decide
  rw [F.p_eq, Nat.add_sub_cancel]
  split
  · exact ⟨by rw [Nat.mod_eq_sub_mod hlo, Nat.mod_eq_of_lt (by omega)], rfl⟩
  · exact ⟨Nat.mod_eq_of_lt (by omega), by omega⟩

/-- Under the other exponent fields of finite values the value is the significand at its exponent (R84, R107). -/
theorem encodes_packNormal (hlo : 2 ^ (F.p - 1) ≤ q) (hhi : q < 2 ^ F.p) (hbe0 : 1 ≤ be) (hbemax : be < F.expMax) :
    Encodes F (packNormal F s be q) s q ((be : Int) - F.bias - F.t) := by
  have hw := F.two_pow_w
  have hmax := F.expMax_eq
  have hp := F.two_pow_p
  rw [F.p_eq, Nat.add_sub_cancel] at hlo
  have hne : be ≠ 0 := by omega
  obtain ⟨hfield, hlast⟩ := significand_field hlo hhi
  have hpat : IsPattern F (packNormal F s be q) :=
    isPattern_packNormal (by rintro rfl; exact ⟨⟨hbe0, by simp only [Fmt.bias] at hmax; omega⟩, hlo, hhi⟩)
  have hbe : bexpOf F (packNormal F s be q) = be := by rw [packNormal, bexpOf_pack, Nat.mod_eq_of_lt (by omega)]
  have hfrac : fracOf F (packNormal F s be q) = q - 2 ^ F.t := by rw [packNormal, fracOf_pack, hfield]
  refine ⟨(isNumber_iff hpat.2).mpr (by omega), ?_, ?_⟩
  · rw [valueOf, packNormal, signOf_pack, ← packNormal, intSigOf, intExpOf, hbe, if_neg hne, if_neg hne,
      hfrac, Nat.add_sub_cancel' hlo, mul_assoc]
  · rw [packNormal, getLsbD_zero_pack, hlast]

end Machine
end Sys2Proof

/-! PROOFS. Rounding an exactly representable value delivers its encoding (R112). -/

namespace Sys2Proof.Machine

variable {F : Fmt} {m : RMode} {sign : Bool} {tp : BitVec 1} {N : Nat} {e sh : Int} {y : Word}

theorem abs_valueOf (F : Fmt) (y : Word) : |valueOf F y| = intSigOf F y * 2 ^ intExpOf F y := by
  have hnonneg : (0 : ℝ) ≤ intSigOf F y * 2 ^ intExpOf F y := by positivity
  rw [valueOf, mul_assoc]
  split <;> simp [abs_of_nonneg hnonneg]

/-- Nothing is discarded at a place the significand does not reach below, in any mode (R112). -/
theorem roundInt_cutAt_exact (m : RMode) (sign : Bool) (h : sh ≤ 0) :
    roundInt m sign (cutAt N sh false) = ⟨N * 2 ^ (-sh).toNat, false, false⟩ := by
  rw [cutAt_of_nonpos false h, roundInt_exact]

theorem bitlen_eq {L : Nat} (hlo : 2 ^ L ≤ N) (hhi : N < 2 ^ (L + 1)) : bitlen N = L + 1 := by
  refine le_antisymm (bitlen_le_of_lt hhi) ?_
  exact (Nat.pow_lt_pow_iff_right (by decide : 1 < 2)).mp (hlo.trans_lt (lt_two_pow_bitlen N))

/-- A significand of no more than `p` bits is only shifted (R103). -/
theorem roundUnbounded_exact (hL : N < 2 ^ F.p) :
    roundUnbounded F m sign N e false = ⟨N * 2 ^ (F.p - bitlen N), unroundedExp N e, false, false⟩ := by
  have hle := bitlen_le_of_lt hL
  have hround := roundInt_cutAt_exact (N := N) m sign (sh := (bitlen N : Int) - F.p) (by omega)
  have hlt : N * 2 ^ (F.p - bitlen N) < 2 ^ F.p := by
    calc N * 2 ^ (F.p - bitlen N) < 2 ^ bitlen N * 2 ^ (F.p - bitlen N) :=
          Nat.mul_lt_mul_of_pos_right (lt_two_pow_bitlen N) (Nat.two_pow_pos _)
      _ = 2 ^ F.p := by rw [← pow_add, Nat.add_sub_cancel' hle]
  rw [show (-((bitlen N : Int) - F.p)).toNat = F.p - bitlen N by omega] at hround
  simp only [roundUnbounded, hround, if_neg hlt.ne]

/-- A normal value is delivered as it is, with no flag (R107). -/
theorem roundPack_normal (hlo : 2 ^ (F.p - 1) ≤ N) (hhi : N < 2 ^ F.p) (hmin : F.emin ≤ e + F.p - 1)
    (hmax : e + F.p - 1 ≤ F.emax) :
    (roundPack F m tp sign N e false).res = packNormal F sign (e + F.p - 1 + F.bias).toNat N ∧
      (roundPack F m tp sign N e false).fl = 0#7 := by
  have hN : 0 < N := (Nat.two_pow_pos _).trans_le hlo
  have hp := F.p_eq
  have hL : bitlen N = F.p := by
    rw [show F.p = F.p - 1 + 1 by omega] at hhi ⊢
    exact bitlen_eq hlo hhi
  have hu := roundUnbounded_exact (m := m) (sign := sign) (e := e) hhi
  have hE : unroundedExp N e = e + F.p - 1 := by rw [unroundedExp, hL]
  rw [hL, Nat.sub_self, pow_zero, mul_one, hE] at hu
  simp only [roundPack, hE, hu, if_pos hmin, if_neg (not_lt.mpr hmax), isTiny_of_le hmin le_rfl]
  simp [deliverNormal, raiseIf]

/-- A subnormal value is delivered as it is, with `Tiny` alone (R108). -/
theorem roundPack_subnormal (hlt : N < 2 ^ (F.p - 1)) :
    (roundPack F m tp sign N (F.emin - F.p + 1) false).res = pack F sign 0 N ∧
      (roundPack F m tp sign N (F.emin - F.p + 1) false).fl = 0x40#7 := by
  have hp := F.p_eq
  have hle := bitlen_le_of_lt hlt
  have hu := roundUnbounded_exact (F := F) (m := m) (sign := sign) (e := F.emin - F.p + 1)
    (hlt.trans (Nat.pow_lt_pow_right (by decide) (by omega)))
  have hE : unroundedExp N (F.emin - F.p + 1) < F.emin := by
    unfold unroundedExp
    omega
  have htiny : isTiny F tp (unroundedExp N (F.emin - F.p + 1)) (unroundedExp N (F.emin - F.p + 1)) = true := by
    simp [isTiny, hE]
  have hround := roundInt_cutAt_exact (N := N) m sign (sh := F.emin - F.p + 1 - (F.emin - F.p + 1)) (by omega)
  rw [sub_self, neg_zero, Int.toNat_zero, pow_zero, mul_one] at hround
  simp only [roundPack, hu, if_neg (not_le.mpr hE), htiny, deliverSubnormal, sub_self, hround, if_neg hlt.ne]
  simp [raiseIf, Flag.mask, Flag.bit]

/-! ### A value's own significand and exponent -/

theorem intSigOf_pos_of_isFin (h : isFin F y = true) : 0 < intSigOf F y := by
  have hclass : classOf F y = .subnormal ∨ classOf F y = .normal := by simpa [isFin] using h
  obtain hc | hc := hclass <;> exact intSigOf_pos (by simp [hc]) (by simp [isZero, hc])

/-- A subnormal pattern is its significand on the subnormal grid (R84, R87). -/
theorem subnormal_fields (hy : y.toNat < 2 ^ F.k) (hc : classOf F y = .subnormal) :
    intSigOf F y < 2 ^ (F.p - 1) ∧ intExpOf F y = F.emin - F.p + 1 ∧ pack F (signOf F y) 0 (intSigOf F y) = y := by
  have hcanon : classOf F y ≠ .nonCanonical := by simp [hc]
  have hp := F.p_eq
  obtain ⟨hbe, -⟩ := (finite_classes hcanon).2.1.mp hc
  have hN : intSigOf F y = fracOf F y := by rw [intSigOf, if_pos hbe]
  have hsig : sigOf F y = fracOf F y := by simpa [hbe] using sigOf_eq_frac hcanon
  refine ⟨?_, by rw [intExpOf, if_pos hbe]; omega, ?_⟩
  · rw [hN, hp, Nat.add_sub_cancel]
    exact Nat.mod_lt _ (Nat.two_pow_pos _)
  · rw [hN, ← hsig, ← hbe, pack_fields hy]

/-- A normal pattern is its significand of `p` bits at its exponent (R84, R87). -/
theorem normal_fields (hy : y.toNat < 2 ^ F.k) (hc : classOf F y = .normal) :
    2 ^ (F.p - 1) ≤ intSigOf F y ∧ F.emin ≤ intExpOf F y + F.p - 1 ∧ intExpOf F y + F.p - 1 ≤ F.emax ∧
      packNormal F (signOf F y) (intExpOf F y + F.p - 1 + F.bias).toNat (intSigOf F y) = y := by
  have hcanon : classOf F y ≠ .nonCanonical := by simp [hc]
  have hp := F.p_eq
  have hw := F.two_pow_w
  have hmax := F.expMax_eq
  obtain ⟨hbe0, hbemax⟩ := (finite_classes hcanon).1.mp hc
  have hlt : bexpOf F y < 2 ^ F.w := Nat.mod_lt _ (Nat.two_pow_pos _)
  have hE : intExpOf F y + F.p - 1 = (bexpOf F y : Int) - F.bias := by rw [intExpOf, if_neg hbe0]; omega
  have hN : intSigOf F y = 2 ^ F.t + fracOf F y := by rw [intSigOf, if_neg hbe0]
  have hfield : (if F.explicitLead then intSigOf F y else intSigOf F y - 2 ^ (F.p - 1)) = sigOf F y := by
    rw [sigOf_eq_frac hcanon, hN, hp, Nat.add_sub_cancel]
    cases F.explicitLead <;> simp [hbe0]
  rw [hE]
  refine ⟨by rw [hp, Nat.add_sub_cancel, hN]; omega, ?_, ?_, ?_⟩
  · unfold Fmt.emin
    omega
  · unfold Fmt.emax
    omega
  · rw [packNormal, hfield, sub_add_cancel, Int.toNat_natCast, pack_fields hy]

/-- Any exact intermediate of a magnitude leaves what any other does (R111). -/
theorem roundPack_congr {st st' : Bool} {N' : Nat} {e' : Int} {x : ℝ} (h : StandsFor F N e st x)
    (h' : StandsFor F N' e' st' x) : roundPack F m tp sign N e st = roundPack F m tp sign N' e' st' := by
  rw [roundPackRoundsTheRealNumber F m tp sign N e st x h, roundPackRoundsTheRealNumber F m tp sign N' e' st' x h']

/-- Settles O34: the intermediate may be taken to be the value's own significand and exponent, and those are delivered
unchanged. -/
theorem roundingIsIdempotent : Obligations.RoundingIsIdempotent := by
  intro F m tp y N e hy hfin hN hx
  have hclass : classOf F y = .subnormal ∨ classOf F y = .normal := by simpa [isFin] using hfin
  have hpos := intSigOf_pos_of_isFin hfin
  rw [roundPack_congr (st := false) (st' := false) ⟨hN, hx.symm⟩ ⟨hpos, abs_valueOf F y⟩]
  obtain hc | hc := hclass
  · obtain ⟨hlt, hexp, hfields⟩ := subnormal_fields hy hc
    obtain ⟨hres, hfl⟩ := roundPack_subnormal (m := m) (sign := signOf F y) (tp := tp) hlt
    rw [hexp]
    exact ⟨hres.trans hfields, by rw [hfl, if_pos hc]⟩
  · obtain ⟨hlo, hmin, hmax, hfields⟩ := normal_fields hy hc
    obtain ⟨hres, hfl⟩ := roundPack_normal (m := m) (sign := signOf F y) (tp := tp) hlo (intSigOf_lt F y) hmin hmax
    exact ⟨hres.trans hfields, by rw [hfl, if_neg (by simp [hc])]⟩

end Sys2Proof.Machine

/-! PROOFS. A nonnegative real rounded to an integer (R101, R102): its flags say on which side of the real the integer lies,
and no mode steps over a point of the grid. -/

namespace Sys2Proof.Machine

variable {F : Fmt} {m : RMode} {sign : Bool} {y W : ℝ} {n : Nat}

/-! ### The flags of a rounding -/

/-- No mode increments an exact value (R112). -/
theorem refRound_inexact_of_incremented (h : (refRound m sign y).incremented = true) :
    (refRound m sign y).inexact = true := by
  simp only [refRound, decide_eq_true_iff] at h ⊢
  cases m with
  | ne => rcases h with h | ⟨h, -⟩ <;> linarith
  | minmag => exact h.elim
  | min => exact h.2
  | max => exact h.2
  | nmm => dsimp only at h; linarith
  | stk => exact h.1

theorem refRound_of_not_incremented (h : (refRound m sign y).incremented = false) :
    (refRound m sign y).q = ⌊y⌋₊ := by
  simp [refRound_q, h]

theorem refRound_of_incremented (hy : 0 ≤ y) (h : (refRound m sign y).incremented = true) :
    (refRound m sign y).q = ⌊y⌋₊ + 1 ∧ (⌊y⌋₊ : ℝ) < y := by
  have hne : y - ⌊y⌋₊ ≠ 0 := of_decide_eq_true (refRound_inexact_of_incremented h)
  exact ⟨by rw [refRound_q, if_pos h], (Nat.floor_le hy).lt_of_ne' (sub_ne_zero.mp hne)⟩

theorem refRound_incremented_iff (hy : 0 ≤ y) :
    (refRound m sign y).incremented = true ↔ y < (refRound m sign y).q := by
  cases h : (refRound m sign y).incremented with
  | false => simpa [refRound_of_not_incremented h] using Nat.floor_le hy
  | true => simpa [(refRound_of_incremented hy h).1] using Nat.lt_floor_add_one y

theorem refRound_inexact_iff (hy : 0 ≤ y) :
    (refRound m sign y).inexact = true ↔ ((refRound m sign y).q : ℝ) ≠ y := by
  cases h : (refRound m sign y).incremented with
  | false =>
    rw [refRound_of_not_incremented h, ne_comm, ← sub_ne_zero]
    exact decide_eq_true_iff
  | true => exact iff_of_true (refRound_inexact_of_incremented h) ((refRound_incremented_iff hy).mp h).ne'

/-! ### The choice of each mode -/

/-- `W` is not strictly between `n` and `n + 1`. -/
def Avoids (n : Nat) (W : ℝ) : Prop := W ≤ n ∨ (n : ℝ) + 1 ≤ W

/-- In every mode the rounded integer is a neighbour of the real number. -/
theorem refRound_neighbour (m : RMode) (sign : Bool) (hy : 0 ≤ y) (hW : Avoids ⌊y⌋₊ W) :
    (W ≤ y → W ≤ (refRound m sign y).q) ∧ (y ≤ W → (refRound m sign y).q ≤ W) := by
  have hlo := Nat.floor_le hy
  have hhi := Nat.lt_floor_add_one y
  cases h : (refRound m sign y).incremented with
  | false =>
    rw [refRound_of_not_incremented h]
    rcases hW with hW | hW <;> constructor <;> intro <;> linarith
  | true =>
    obtain ⟨hq, hlt⟩ := refRound_of_incremented hy h
    rw [hq]
    push_cast
    rcases hW with hW | hW <;> constructor <;> intro <;> linarith

/-- The truncating mode, and the directed modes towards zero, round down (R102). -/
theorem refRound_le (hy : 0 ≤ y) (hm : m = .minmag ∨ m = .min ∧ sign = false ∨ m = .max ∧ sign = true) :
    (refRound m sign y).q ≤ y := by
  have hinc : ¬(refRound m sign y).incremented = true := by
    obtain rfl | ⟨rfl, rfl⟩ | ⟨rfl, rfl⟩ := hm <;> simp [refRound]
  rwa [refRound_incremented_iff hy, not_lt] at hinc

/-- The directed modes away from zero round up (R102). -/
theorem le_refRound (hy : 0 ≤ y) (hm : m = .min ∧ sign = true ∨ m = .max ∧ sign = false) :
    y ≤ (refRound m sign y).q := by
  have hinc : (refRound m sign y).incremented = (refRound m sign y).inexact := by
    obtain ⟨rfl, rfl⟩ | ⟨rfl, rfl⟩ := hm <;> simp [refRound]
  cases h : (refRound m sign y).inexact with
  | false =>
    have hexact := (refRound_inexact_iff hy).not.mp (Bool.not_eq_true _ ▸ h)
    exact (not_not.mp hexact).ge
  | true => exact ((refRound_incremented_iff hy).mp (hinc.trans h)).le

/-- The nearest modes take the nearer neighbour (R102). -/
theorem refRound_nearest (hy : 0 ≤ y) (hm : m = .ne ∨ m = .nmm) :
    (refRound m sign y).q = ⌊y⌋₊ ∧ y - ⌊y⌋₊ ≤ 1 / 2 ∨ (refRound m sign y).q = ⌊y⌋₊ + 1 ∧ 1 / 2 ≤ y - ⌊y⌋₊ := by
  cases h : (refRound m sign y).incremented with
  | false =>
    refine .inl ⟨refRound_of_not_incremented h, ?_⟩
    simp only [refRound, decide_eq_false_iff_not] at h
    obtain rfl | rfl := hm
    · exact not_lt.mp fun hgt => h (.inl hgt)
    · exact (not_le.mp h).le
  | true =>
    refine .inr ⟨(refRound_of_incremented hy h).1, ?_⟩
    simp only [refRound, decide_eq_true_iff] at h
    obtain rfl | rfl := hm
    · exact h.elim le_of_lt fun heq => heq.1.ge
    · exact h

theorem refRound_nearest_le (hy : 0 ≤ y) (hm : m = .ne ∨ m = .nmm) (hW : Avoids ⌊y⌋₊ W) :
    |(refRound m sign y).q - y| ≤ |W - y| := by
  have hlo := Nat.floor_le hy
  have hhi := Nat.lt_floor_add_one y
  have hq : |((refRound m sign y).q : ℝ) - y| ≤ min (y - ⌊y⌋₊) (⌊y⌋₊ + 1 - y) := by
    obtain ⟨hq, hhalf⟩ | ⟨hq, hhalf⟩ := refRound_nearest (sign := sign) hy hm <;> rw [hq, le_min_iff]
    · rw [abs_of_nonpos (by linarith)]
      constructor <;> linarith
    · push_cast
      rw [abs_of_nonneg (by linarith)]
      constructor <;> linarith
  obtain hW | hW := hW
  · exact (hq.trans (min_le_left _ _)).trans (by rw [abs_sub_comm]; exact le_abs.mpr (.inl (by linarith)))
  · exact (hq.trans (min_le_right _ _)).trans (le_abs.mpr (.inl (by linarith)))

/-- Two points of the grid equally near lie one half away. -/
theorem half_of_tie (hy : 0 ≤ y) (hm : m = .ne ∨ m = .nmm) (hW : Avoids ⌊y⌋₊ W) (hne : W ≠ (refRound m sign y).q)
    (heq : |W - y| = |(refRound m sign y).q - y|) : y - ⌊y⌋₊ = 1 / 2 := by
  have hlo := Nat.floor_le hy
  have hhi := Nat.lt_floor_add_one y
  have hsum : W - y = -((refRound m sign y).q - y) :=
    (abs_eq_abs.mp heq).resolve_left fun h => hne (sub_left_injective h)
  obtain ⟨hq, hhalf⟩ | ⟨hq, hhalf⟩ := refRound_nearest (sign := sign) hy hm <;> rw [hq] at hsum hne <;>
    push_cast at hsum hne <;> obtain hW | hW := hW
  · have := hW.lt_of_ne hne
    linarith
  · linarith
  · linarith
  · have := hW.lt_of_ne' hne
    linarith

/-- Of two equally near, `NE` takes the even integer (R102). -/
theorem refRound_ne_even (h : y - ⌊y⌋₊ = 1 / 2) : (refRound .ne sign y).q % 2 = 0 := by
  simp only [refRound, h, lt_irrefl, false_or, true_and]
  split <;> omega

/-- Of two equally near, `NMM` takes the larger (R102). -/
theorem lt_refRound_nmm (hy : 0 ≤ y) (h : y - ⌊y⌋₊ = 1 / 2) : y < (refRound .nmm sign y).q := by
  refine (refRound_incremented_iff hy).mp ?_
  simp [refRound, h]

/-- What `STK` rounds is odd unless it is exact (R102). -/
theorem refRound_stk_odd (hy : 0 ≤ y) (h : ((refRound .stk sign y).q : ℝ) ≠ y) : (refRound .stk sign y).q % 2 = 1 := by
  have hne : y - ⌊y⌋₊ ≠ 0 := of_decide_eq_true ((refRound_inexact_iff hy).mpr h)
  simp only [refRound, ne_eq, hne, not_false_eq_true, true_and]
  split <;> omega

end Sys2Proof.Machine

/-! PROOFS. What the rounding pass delivers, as a value: the exact magnitude rounded once on the grid of its binade or of the
subnormal values (R107, R108), the meaning of the flags (R109), and the choice each mode makes among the values of the
format (R102). -/

namespace Sys2Proof.Machine

variable {F : Fmt} {m : RMode} {sign : Bool} {tp : BitVec 1} {x W : ℝ} {n : Nat} {g : Int} {y : Word}

/-! ### The grid of a magnitude -/

/-- The exponent of the last place kept of a magnitude: `p` bits, but not below the subnormal grid (R103, R108). -/
noncomputable def gridExp (F : Fmt) (x : ℝ) : Int := max (Int.log 2 x) F.emin - F.p + 1

/-- The magnitude rounded once on its grid. -/
noncomputable def refGrid (F : Fmt) (m : RMode) (sign : Bool) (x : ℝ) : Rounded := refRound m sign (x / 2 ^ gridExp F x)

/-- In units of `2^(E - p + 1)` a magnitude has `p` bits before the point (R103). -/
theorem scaled_bounds (hx : 0 < x) :
    (2 : ℝ) ^ (F.p - 1) ≤ x / 2 ^ (Int.log 2 x - F.p + 1) ∧ x / 2 ^ (Int.log 2 x - F.p + 1) < 2 ^ F.p := by
  have hp := F.p_eq
  have hlo : (2 : ℝ) ^ Int.log 2 x ≤ x := by exact_mod_cast Int.zpow_log_le_self one_lt_two hx
  have hhi : x < (2 : ℝ) ^ (Int.log 2 x + 1) := by exact_mod_cast Int.lt_zpow_succ_log_self one_lt_two x
  rw [le_div_iff₀ (by positivity), div_lt_iff₀ (by positivity), ← zpow_natCast, ← zpow_natCast,
    ← zpow_add₀ two_ne_zero, ← zpow_add₀ two_ne_zero]
  constructor
  · rwa [show ((F.p - 1 : Nat) : Int) + (Int.log 2 x - F.p + 1) = Int.log 2 x by omega]
  · rwa [show (F.p : Int) + (Int.log 2 x - F.p + 1) = Int.log 2 x + 1 by omega]

/-- The rounding to `p` bits, before the carry is renormalised, stays within `p` bits or carries out (R103). -/
theorem refRound_scaled_bounds (m : RMode) (sign : Bool) (hx : 0 < x) :
    2 ^ (F.p - 1) ≤ (refRound m sign (x / 2 ^ (Int.log 2 x - F.p + 1))).q ∧
      (refRound m sign (x / 2 ^ (Int.log 2 x - F.p + 1))).q ≤ 2 ^ F.p := by
  obtain ⟨hlo, hhi⟩ := scaled_bounds (F := F) hx
  have h1 : 2 ^ (F.p - 1) ≤ ⌊x / 2 ^ (Int.log 2 x - F.p + 1)⌋₊ := Nat.le_floor (by exact_mod_cast hlo)
  have h2 : ⌊x / 2 ^ (Int.log 2 x - F.p + 1)⌋₊ < 2 ^ F.p := (Nat.floor_lt (by positivity)).mpr (by exact_mod_cast hhi)
  rw [refRound_q]
  split <;> omega

/-- Below the smallest normal the subnormal grid leaves at most `p - 1` bits, or carries into the smallest normal (R108). -/
theorem refSubnormal_q_le (m : RMode) (sign : Bool) (hx : 0 < x) (hE : Int.log 2 x < F.emin) :
    (refSubnormal F m sign x).q ≤ 2 ^ (F.p - 1) := by
  have hp := F.p_eq
  have hlt : x < (2 : ℝ) ^ F.emin := by exact_mod_cast (Int.lt_zpow_iff_log_lt one_lt_two hx).mpr hE
  have hfloor : ⌊x / 2 ^ (F.emin - F.p + 1)⌋₊ < 2 ^ (F.p - 1) := by
    rw [Nat.floor_lt (by positivity), div_lt_iff₀ (by positivity), Nat.cast_pow, Nat.cast_ofNat, ← zpow_natCast,
      ← zpow_add₀ two_ne_zero, show ((F.p - 1 : Nat) : Int) + (F.emin - F.p + 1) = F.emin by omega]
    exact hlt
  rw [refSubnormal, refRound_q]
  split <;> omega

/-! ### What is delivered -/

/-- A magnitude in the normal range that does not overflow is delivered as its unbounded rounding (R107). -/
theorem encodes_normal (hx : 0 < x) (hlo : F.emin ≤ Int.log 2 x) (hhi : (refUnbounded F m sign x).Eu ≤ F.emax) :
    Encodes F (packNormal F sign ((refUnbounded F m sign x).Eu + F.bias).toNat (refUnbounded F m sign x).qu) sign
      (refRound m sign (x / 2 ^ (Int.log 2 x - F.p + 1))).q (Int.log 2 x - F.p + 1) := by
  obtain ⟨hq1, hq2⟩ := refRound_scaled_bounds (F := F) m sign hx
  have hp := F.p_eq
  have hmax := F.expMax_eq
  unfold Fmt.emin at hlo
  unfold Fmt.emax at hhi
  unfold refUnbounded at hhi ⊢
  dsimp only at hhi ⊢
  split_ifs at hhi ⊢ with hcarry <;> dsimp only at hhi ⊢
  · rw [hcarry]
    refine Encodes.carry ?_
    convert encodes_packNormal le_rfl (Nat.pow_lt_pow_right (by decide) (by omega)) (F := F) (s := sign)
      (be := (Int.log 2 x + 1 + F.bias).toNat) (by omega) (by omega) using 1
    omega
  · convert encodes_packNormal hq1 (lt_of_le_of_ne hq2 hcarry) (s := sign)
      (be := (Int.log 2 x + F.bias).toNat) (by omega) (by omega) using 1
    omega

/-- A magnitude below the smallest normal is delivered on the subnormal grid (R108). -/
theorem encodes_subnormal (hx : 0 < x) (hE : Int.log 2 x < F.emin) :
    Encodes F (if (refSubnormal F m sign x).q = 2 ^ (F.p - 1) then packNormal F sign 1 (refSubnormal F m sign x).q
      else pack F sign 0 (refSubnormal F m sign x).q) sign (refSubnormal F m sign x).q (F.emin - F.p + 1) := by
  have hle := refSubnormal_q_le m sign hx hE
  have hp := F.p_eq
  have hmax := F.expMax_eq
  have hbias := F.bias_pos
  split_ifs with hcarry
  · convert encodes_packNormal hcarry.ge (hcarry.trans_lt (Nat.pow_lt_pow_right (by decide) (by omega))) (F := F)
      (s := sign) (be := 1) le_rfl (by omega) using 1
    unfold Fmt.emin
    omega
  · convert encodes_pack (s := sign) (lt_of_le_of_ne hle hcarry |>.trans_eq (by rw [hp, Nat.add_sub_cancel])) using 1
    omega

/-- The tininess of a magnitude by the policy `TP` (R104). -/
noncomputable def refTiny (F : Fmt) (m : RMode) (tp : BitVec 1) (sign : Bool) (x : ℝ) : Bool :=
  isTiny F tp (Int.log 2 x) (refUnbounded F m sign x).Eu

/-- The magnitude overflows: it is no smaller than the smallest normal and rounds to an exponent above `emax` (R106). -/
def Overflows (F : Fmt) (m : RMode) (sign : Bool) (x : ℝ) : Prop :=
  F.emin ≤ Int.log 2 x ∧ F.emax < (refUnbounded F m sign x).Eu

theorem refUnbounded_Eu_ge (F : Fmt) (m : RMode) (sign : Bool) (x : ℝ) :
    Int.log 2 x ≤ (refUnbounded F m sign x).Eu := by
  unfold refUnbounded
  dsimp only
  split <;> dsimp only <;> omega

/-- The renormalisation of a carry leaves the flags as they are (R103). -/
theorem refUnbounded_flags (F : Fmt) (m : RMode) (sign : Bool) (x : ℝ) :
    (refUnbounded F m sign x).inexact = (refRound m sign (x / 2 ^ (Int.log 2 x - F.p + 1))).inexact ∧
      (refUnbounded F m sign x).incremented = (refRound m sign (x / 2 ^ (Int.log 2 x - F.p + 1))).incremented := by
  unfold refUnbounded
  dsimp only
  split <;> exact ⟨rfl, rfl⟩

theorem refTiny_of_le (h : F.emin ≤ Int.log 2 x) : refTiny F m tp sign x = false :=
  isTiny_of_le h (refUnbounded_Eu_ge F m sign x)

/-- The flags of a rounding that does not overflow (R107, R108). -/
def passFlags (inexact incremented tiny : Bool) : BitVec 7 :=
  raiseIf tiny .tiny ||| (raiseIf inexact .inexact ||| raiseIf incremented .incremented |||
    raiseIf (tiny && inexact) .underflow)

/-- Unless it overflows, the pass delivers the magnitude rounded once on its grid, with the flags of that rounding. -/
theorem refRoundPack_inRange (hx : 0 < x) (hov : ¬Overflows F m sign x) :
    Encodes F (refRoundPack F m tp sign x).res sign (refGrid F m sign x).q (gridExp F x) ∧
      (refRoundPack F m tp sign x).fl =
        passFlags (refGrid F m sign x).inexact (refGrid F m sign x).incremented (refTiny F m tp sign x) := by
  by_cases hE : F.emin ≤ Int.log 2 x
  · have hEu : (refUnbounded F m sign x).Eu ≤ F.emax := not_lt.mp fun h => hov ⟨hE, h⟩
    have hgrid : gridExp F x = Int.log 2 x - F.p + 1 := by rw [gridExp, max_eq_left hE]
    obtain ⟨hix, hinc⟩ := refUnbounded_flags F m sign x
    rw [refGrid, hgrid]
    unfold refRoundPack
    simp only [if_pos hE, if_neg (not_lt.mpr hEu)]
    refine ⟨encodes_normal hx hE hEu, ?_⟩
    change raiseIf (refTiny F m tp sign x) .tiny ||| (raiseIf (refUnbounded F m sign x).inexact .inexact |||
      raiseIf (refUnbounded F m sign x).incremented .incremented) = _
    simp [passFlags, hix, hinc, refTiny_of_le hE, raiseIf]
  · have hgrid : gridExp F x = F.emin - F.p + 1 := by rw [gridExp, max_eq_right (by omega)]
    have hround : refGrid F m sign x = refSubnormal F m sign x := by rw [refGrid, hgrid, refSubnormal]
    rw [hround, hgrid]
    unfold refRoundPack
    simp only [if_neg hE]
    exact ⟨encodes_subnormal hx (not_le.mp hE), rfl⟩

/-- The largest finite value (R87). -/
theorem encodes_maxFinite (F : Fmt) (s : Bool) : Encodes F (maxFiniteOf F s) s (2 ^ F.p - 1) (F.emax - F.p + 1) := by
  have hp := F.p_eq
  have hmax := F.expMax_eq
  have hbias := F.bias_pos
  have h2p := F.two_pow_p
  have hpack : maxFiniteOf F s = packNormal F s (F.expMax - 1) (2 ^ F.p - 1) := by cases F <;> rfl
  rw [hpack]
  convert encodes_packNormal (s := s) (F := F) (be := F.expMax - 1) (q := 2 ^ F.p - 1) ?_ ?_ ?_ ?_ using 1
  · unfold Fmt.emax
    omega
  · rw [hp, Nat.add_sub_cancel, ← hp]
    have := Nat.two_pow_pos F.t
    omega
  · have := Nat.two_pow_pos F.p
    omega
  · omega
  · omega

theorem isInf_infOf (F : Fmt) (s : Bool) : isInf F (infOf F s) = true := by cases F <;> cases s <;> decide

/-- What overflows is above the largest finite value. -/
theorem maxFinite_lt (hx : 0 < x) (hov : Overflows F m sign x) :
    ((2 ^ F.p - 1 : Nat) : ℝ) * 2 ^ (F.emax - F.p + 1) < x := by
  obtain ⟨-, hEu⟩ := hov
  have hg : (0 : ℝ) < 2 ^ (Int.log 2 x - F.p + 1) := by positivity
  obtain ⟨hlo, hhi⟩ := scaled_bounds (F := F) hx
  unfold refUnbounded at hEu
  dsimp only at hEu
  split_ifs at hEu with hcarry 
  · have hE : F.emax ≤ Int.log 2 x := Int.lt_add_one_iff.mp hEu
    have hy : ((2 ^ F.p - 1 : Nat) : ℝ) < x / 2 ^ (Int.log 2 x - F.p + 1) := by
      have hfloor : ⌊x / 2 ^ (Int.log 2 x - F.p + 1)⌋₊ < 2 ^ F.p :=
        (Nat.floor_lt (by positivity)).mpr (by exact_mod_cast hhi)
      cases h : (refRound m sign (x / 2 ^ (Int.log 2 x - F.p + 1))).incremented with
      | false => exact absurd (refRound_of_not_incremented h ▸ hcarry) hfloor.ne
      | true =>
        obtain ⟨hq, hlt⟩ := refRound_of_incremented (by positivity) h
        rwa [← hcarry, hq, Nat.add_sub_cancel]
    calc ((2 ^ F.p - 1 : Nat) : ℝ) * 2 ^ (F.emax - F.p + 1) ≤ (2 ^ F.p - 1 : Nat) * 2 ^ (Int.log 2 x - F.p + 1) := by
          gcongr
          norm_num
      _ < x := (lt_div_iff₀ hg).mp hy
  · have hE : F.emax + 1 ≤ Int.log 2 x := hEu
    calc ((2 ^ F.p - 1 : Nat) : ℝ) * 2 ^ (F.emax - F.p + 1) < (2 : ℝ) ^ (F.p : Int) * 2 ^ (F.emax - F.p + 1) := by
          gcongr
          rw [zpow_natCast]
          exact_mod_cast Nat.sub_lt (Nat.two_pow_pos F.p) one_pos
      _ = 2 ^ (F.emax + 1) := by rw [← zpow_add₀ two_ne_zero]; congr 1; ring
      _ ≤ x := by exact_mod_cast (Int.zpow_le_iff_le_log one_lt_two hx).mpr hE

end Sys2Proof.Machine

/-! PROOFS. What the rounding pass says and chooses: the meaning of its flags (R109), and that each mode delivers the
value of the format it asks for (R102). -/

namespace Sys2Proof.Machine

variable {F : Fmt} {m : RMode} {sign st : Bool} {tp : BitVec 1} {N : Nat} {e : Int} {x : ℝ} {n : Nat} {g : Int} {v : Word}

/-! ### Flags -/

theorem StandsFor.pos (h : StandsFor F N e st x) : 0 < x := by
  have hN : (0 : ℝ) < N := by exact_mod_cast h.1
  obtain ⟨ε, rfl, h0, -, -⟩ := h.exists_tail
  positivity

/-- On overflow the pass delivers the row of the table with its flags alone (R106). -/
theorem refRoundPack_overflow (hov : Overflows F m sign x) :
    (refRoundPack F m tp sign x).res = (deliverOverflow F m sign).res ∧
      (refRoundPack F m tp sign x).fl = (deliverOverflow F m sign).fl := by
  obtain ⟨hE, hEu⟩ := hov
  unfold refRoundPack
  simp only [if_pos hE, if_pos hEu]
  refine ⟨rfl, ?_⟩
  change raiseIf (refTiny F m tp sign x) .tiny ||| (deliverOverflow F m sign).fl = _
  rw [refTiny_of_le hE, raiseIf, if_neg (by decide), BitVec.zero_or]

/-- An infinity comes with `Incremented`, the largest finite value without (R106). -/
theorem deliverOverflow_cases (F : Fmt) (m : RMode) (sign : Bool) :
    isInf F (deliverOverflow F m sign).res = true ∧ (deliverOverflow F m sign).fl = 0x25#7 ∨
      Encodes F (deliverOverflow F m sign).res sign (2 ^ F.p - 1) (F.emax - F.p + 1) ∧
        (deliverOverflow F m sign).fl = 0x05#7 := by
  unfold deliverOverflow
  dsimp only
  split
  · exact .inl ⟨isInf_infOf F sign, rfl⟩
  · exact .inr ⟨encodes_maxFinite F sign, rfl⟩

theorem overflows_iff (hx : 0 < x) :
    Overflows F m sign x ↔ (2 : ℝ) ^ F.emin ≤ x ∧ F.emax < (refUnbounded F m sign x).Eu := by
  rw [Overflows, ← Int.zpow_le_iff_le_log one_lt_two hx, Nat.cast_ofNat]

theorem refTiny_iff (hx : 0 < x) : refTiny F m tp sign x = true ↔
    if tp = 0#1 then x < (2 : ℝ) ^ F.emin else (refUnbounded F m sign x).Eu < F.emin := by
  have hlog : x < (2 : ℝ) ^ F.emin ↔ Int.log 2 x < F.emin := by exact_mod_cast Int.lt_zpow_iff_log_lt one_lt_two hx
  rw [refTiny, isTiny, hlog]
  split <;> exact decide_eq_true_iff

theorem passFlags_bits : ∀ inexact incremented tiny : Bool,
    (passFlags inexact incremented tiny).getLsbD 0 = inexact ∧
      (passFlags inexact incremented tiny).getLsbD 1 = (tiny && inexact) ∧
      (passFlags inexact incremented tiny).getLsbD 2 = false ∧
      (passFlags inexact incremented tiny).getLsbD 3 = false ∧
      (passFlags inexact incremented tiny).getLsbD 4 = false ∧
      (passFlags inexact incremented tiny).getLsbD 5 = incremented ∧
      (passFlags inexact incremented tiny).getLsbD 6 = tiny := by decide

/-- `Inexact` and `Incremented` compare the value on the grid with the magnitude (R109). -/
theorem refGrid_flags (hx : 0 < x) :
    ((refGrid F m sign x).inexact = true ↔ ((refGrid F m sign x).q : ℝ) * 2 ^ gridExp F x ≠ x) ∧
      ((refGrid F m sign x).incremented = true ↔ x < ((refGrid F m sign x).q : ℝ) * 2 ^ gridExp F x) := by
  have hy : 0 ≤ x / 2 ^ gridExp F x := by positivity
  have h2 : (0 : ℝ) < 2 ^ gridExp F x := by positivity
  refine ⟨(refRound_inexact_iff hy).trans ?_, (refRound_incremented_iff hy).trans ?_⟩
  · rw [Ne, eq_div_iff h2.ne', refGrid]
  · rw [div_lt_iff₀ h2, refGrid]

/-- Settles O32: on overflow the table's flags are read off, and otherwise the flags compare the value on the grid with the
magnitude. -/
theorem roundingFlagsSayWhatHappened : Obligations.RoundingFlagsSayWhatHappened := by
  intro F m tp sign N e st x h
  have hx := h.pos
  dsimp only
  rw [roundPackRoundsTheRealNumber F m tp sign N e st x h, ← refTiny_iff hx, ← overflows_iff hx]
  by_cases hov : Overflows F m sign x
  · obtain ⟨hres, hfl⟩ := refRoundPack_overflow (tp := tp) hov
    rw [hres, hfl, refTiny_of_le hov.1]
    obtain ⟨hinf, h⟩ | ⟨hmax, h⟩ := deliverOverflow_cases F m sign
    · rw [h]
      simp [hinf, hov]
    · have hlt := maxFinite_lt hx hov
      rw [h, isInf_of_isNumber hmax.number, hmax.abs_value]
      generalize ((2 ^ F.p - 1 : Nat) : ℝ) * 2 ^ (F.emax - F.p + 1) = largest at hlt
      simp [hov, hlt.ne, hlt.le]
  · obtain ⟨henc, hfl⟩ := refRoundPack_inRange (tp := tp) hx hov
    obtain ⟨hix, hinc⟩ := refGrid_flags (F := F) (m := m) (sign := sign) hx
    obtain ⟨h0, h1, h2, h3, h4, h5, h6⟩ :=
      passFlags_bits (refGrid F m sign x).inexact (refGrid F m sign x).incremented (refTiny F m tp sign x)
    rw [hfl, h0, h1, h2, h3, h4, h5, h6, isInf_of_isNumber henc.number, henc.abs_value, Bool.and_eq_true, hix,
      hinc]
    simp [hov]

/-! ### The values of the format on the grid -/

theorem le_intExpOf (F : Fmt) (v : Word) : F.emin - F.p + 1 ≤ intExpOf F v := by
  have hp := F.p_eq
  unfold intExpOf
  split
  · omega
  · unfold Fmt.emin
    omega

/-- In units of a place kept, every value of the format is an integer or below the `p`-bit ones: none is strictly between two
that differ by one unit (R84). -/
theorem avoids_of_abs_eq {W : ℝ} (hn : g ≤ F.emin - F.p + 1 ∨ 2 ^ (F.p - 1) ≤ n) (hW : |W| = |valueOf F v| / 2 ^ g) :
    Avoids n W := by
  have hN : (intSigOf F v : ℝ) ≤ 2 ^ F.p := by exact_mod_cast (intSigOf_lt F v).le
  have hscaled : |W| = intSigOf F v * 2 ^ (intExpOf F v - g) := by
    rw [hW, abs_valueOf, mul_div_assoc, zpow_sub₀ two_ne_zero]
  obtain hle | hlt := le_or_gt g (intExpOf F v)
  · obtain ⟨k, hk⟩ : ∃ k : Nat, intExpOf F v - g = k := ⟨(intExpOf F v - g).toNat, by omega⟩
    have hint : ∃ z : ℤ, W = z := by
      rw [hk, zpow_natCast] at hscaled
      obtain h | h := eq_or_eq_neg_of_abs_eq hscaled
      · exact ⟨intSigOf F v * 2 ^ k, by simp [h]⟩
      · exact ⟨-(intSigOf F v * 2 ^ k), by simp [h]⟩
    obtain ⟨z, rfl⟩ := hint
    obtain hz | hz := le_or_gt z n
    · exact .inl (by exact_mod_cast hz)
    · exact .inr (by exact_mod_cast hz)
  · have hlow := le_intExpOf F v
    have hn : (2 : ℝ) ^ (F.p - 1) ≤ n := by exact_mod_cast hn.resolve_left (by omega)
    refine .inl ((le_abs_self W).trans ?_)
    calc |W| = intSigOf F v * 2 ^ (intExpOf F v - g) := hscaled
      _ ≤ 2 ^ F.p * 2 ^ (-1 : ℤ) := by
          gcongr
          · norm_num
          · omega
      _ = 2 ^ (F.p - 1) := by rw [F.p_eq, Nat.add_sub_cancel, pow_succ, zpow_neg_one, mul_inv_cancel_right₀ two_ne_zero]
      _ ≤ n := hn

/-- On the grid of a magnitude, either the place is the last of all or `p` bits stand before it. -/
theorem gridExp_spec (hx : 0 < x) :
    gridExp F x ≤ F.emin - F.p + 1 ∨ 2 ^ (F.p - 1) ≤ ⌊x / 2 ^ gridExp F x⌋₊ := by
  obtain hE | hE := le_total (Int.log 2 x) F.emin
  · exact .inl (by rw [gridExp, max_eq_right hE])
  · refine .inr (Nat.le_floor ?_)
    rw [gridExp, max_eq_left hE]
    exact_mod_cast (scaled_bounds hx).1

/-- The real number of a sign and a number of units of `2^g`. -/
noncomputable def placed (s : Bool) (g : Int) (W : ℝ) : ℝ := (if s then -1 else 1) * (W * 2 ^ g)

section
variable {s : Bool} {a b W : ℝ}

theorem placed_le_placed : placed s g a ≤ placed s g b ↔ if s then b ≤ a else a ≤ b := by
  have h2 : (0 : ℝ) < 2 ^ g := by positivity
  cases s <;> simp [placed, mul_le_mul_iff_left₀ h2]

theorem abs_placed (s : Bool) (g : Int) (a : ℝ) : |placed s g a| = |a| * 2 ^ g := by
  have h2 : |(2 : ℝ) ^ g| = 2 ^ g := abs_of_pos (by positivity)
  cases s <;> simp [placed, abs_mul, h2]

theorem placed_sub (s : Bool) (g : Int) (a b : ℝ) : placed s g a - placed s g b = placed s g (a - b) := by
  unfold placed
  ring

theorem exists_placed (s : Bool) (g : Int) (r : ℝ) : ∃ W, r = placed s g W := by
  have h2 : (2 : ℝ) ^ g ≠ 0 := by positivity
  refine ⟨(if s then -1 else 1) * (r / 2 ^ g), ?_⟩
  cases s <;> simp [placed, div_mul_cancel₀ r h2]

/-- Every value of the format, in units of the grid of a magnitude, misses the open interval the magnitude lies in. -/
theorem exists_placed_value (s : Bool) (hx : 0 < x) (v : Word) :
    ∃ W, valueOf F v = placed s (gridExp F x) W ∧ Avoids ⌊x / 2 ^ gridExp F x⌋₊ W := by
  obtain ⟨W, hW⟩ := exists_placed s (gridExp F x) (valueOf F v)
  refine ⟨W, hW, avoids_of_abs_eq (v := v) (gridExp_spec hx) ?_⟩
  rw [hW, abs_placed, mul_div_cancel_right₀ _ (by positivity)]

end

/-! ### The choice among the values of the format -/

/-- In every mode the delivered value is a neighbour of the exact one. -/
theorem refGrid_neighbour (hx : 0 < x) (v : Word) :
    (valueOf F v ≤ placed sign (gridExp F x) (x / 2 ^ gridExp F x) →
        valueOf F v ≤ placed sign (gridExp F x) (refGrid F m sign x).q) ∧
      (placed sign (gridExp F x) (x / 2 ^ gridExp F x) ≤ valueOf F v →
        placed sign (gridExp F x) (refGrid F m sign x).q ≤ valueOf F v) := by
  obtain ⟨W, hW, havoid⟩ := exists_placed_value (F := F) sign hx v
  obtain ⟨hbelow, habove⟩ := refRound_neighbour m sign (div_nonneg hx.le (by positivity)) havoid
  rw [hW]
  simp only [placed_le_placed]
  cases sign
  · exact ⟨hbelow, habove⟩
  · exact ⟨habove, hbelow⟩

/-- The value delivered by truncation is the largest in magnitude that is no larger than the exact one (R102). -/
theorem refGrid_minmag (hx : 0 < x) :
    (refGrid F .minmag sign x).q * 2 ^ gridExp F x ≤ x ∧
      ∀ v, |valueOf F v| ≤ x → |valueOf F v| ≤ (refGrid F .minmag sign x).q * 2 ^ gridExp F x := by
  have hy : 0 ≤ x / 2 ^ gridExp F x := by positivity
  have h2 : (0 : ℝ) < 2 ^ gridExp F x := by positivity
  refine ⟨(le_div_iff₀ h2).mp (refRound_le hy (.inl rfl)), fun v hle => ?_⟩
  have havoid : Avoids ⌊x / 2 ^ gridExp F x⌋₊ (|valueOf F v| / 2 ^ gridExp F x) :=
    avoids_of_abs_eq (gridExp_spec hx) (abs_of_nonneg (by positivity))
  rw [← div_le_iff₀ h2]
  exact (refRound_neighbour .minmag sign hy havoid).1 (div_le_div_of_nonneg_right hle h2.le)

/-- `MIN` rounds down and `MAX` rounds up, whichever way the sign turns the magnitude (R102). -/
theorem placed_min_le (hx : 0 < x) :
    placed sign (gridExp F x) (refGrid F .min sign x).q ≤ placed sign (gridExp F x) (x / 2 ^ gridExp F x) := by
  have hy : 0 ≤ x / 2 ^ gridExp F x := by positivity
  rw [placed_le_placed]
  cases sign
  · exact refRound_le hy (.inr (.inl ⟨rfl, rfl⟩))
  · exact le_refRound hy (.inl ⟨rfl, rfl⟩)

theorem le_placed_max (hx : 0 < x) :
    placed sign (gridExp F x) (x / 2 ^ gridExp F x) ≤ placed sign (gridExp F x) (refGrid F .max sign x).q := by
  have hy : 0 ≤ x / 2 ^ gridExp F x := by positivity
  rw [placed_le_placed]
  cases sign
  · exact le_refRound hy (.inr ⟨rfl, rfl⟩)
  · exact refRound_le hy (.inr (.inr ⟨rfl, rfl⟩))

/-- No value of the format is nearer than the one a nearest mode delivers (R102). -/
theorem refGrid_nearest_le (hx : 0 < x) (hm : m = .ne ∨ m = .nmm) (v : Word) :
    |placed sign (gridExp F x) (refGrid F m sign x).q - placed sign (gridExp F x) (x / 2 ^ gridExp F x)| ≤
      |valueOf F v - placed sign (gridExp F x) (x / 2 ^ gridExp F x)| := by
  obtain ⟨W, hW, havoid⟩ := exists_placed_value (F := F) sign hx v
  rw [hW, placed_sub, placed_sub, abs_placed, abs_placed]
  exact mul_le_mul_of_nonneg_right (refRound_nearest_le (by positivity) hm havoid) (by positivity)

/-- Two values of the format equally near the exact one lie half a unit away. -/
theorem half_of_value_tie (hx : 0 < x) (hm : m = .ne ∨ m = .nmm)
    (hne : valueOf F v ≠ placed sign (gridExp F x) (refGrid F m sign x).q)
    (heq : |valueOf F v - placed sign (gridExp F x) (x / 2 ^ gridExp F x)| =
      |placed sign (gridExp F x) (refGrid F m sign x).q - placed sign (gridExp F x) (x / 2 ^ gridExp F x)|) :
    x / 2 ^ gridExp F x - ⌊x / 2 ^ gridExp F x⌋₊ = 1 / 2 := by
  obtain ⟨W, hW, havoid⟩ := exists_placed_value (F := F) sign hx v
  rw [hW, placed_sub, placed_sub, abs_placed, abs_placed] at heq
  rw [hW] at hne
  exact half_of_tie (by positivity) hm havoid (fun h => hne (congrArg _ h)) (mul_right_cancel₀ (by positivity) heq)

/-- Settles O33: in units of the grid, every value of the format misses the interval the exact magnitude lies in, so the
mode's choice of an end is its choice among all values. -/
theorem deliveredValueIsTheModesChoice : Obligations.DeliveredValueIsTheModesChoice := by
  intro F m tp sign N e st x X h hXx
  have hx := h.pos
  obtain ⟨-, -, hflag, -⟩ := roundingFlagsSayWhatHappened F m tp sign N e st x h
  rw [← overflows_iff hx] at hflag
  dsimp only
  intro hfl
  rw [roundPackRoundsTheRealNumber F m tp sign N e st x h] at hfl hflag ⊢
  have hov : ¬Overflows F m sign x := by rw [← hflag, hfl]; decide
  obtain ⟨henc, -⟩ := refRoundPack_inRange (tp := tp) hx hov
  have hy : 0 ≤ x / 2 ^ gridExp F x := by positivity
  have h2 : (0 : ℝ) < 2 ^ gridExp F x := by positivity
  have hd : valueOf F (refRoundPack F m tp sign x).res = placed sign (gridExp F x) (refGrid F m sign x).q := henc.value
  have hX : X = placed sign (gridExp F x) (x / 2 ^ gridExp F x) := by
    rw [hXx, placed, div_mul_cancel₀ _ h2.ne']
    cases sign <;> simp
  have hneighbour := refGrid_neighbour (F := F) (m := m) (sign := sign) hx
  rw [hd, hX, henc.last]
  refine ⟨henc.number, ?_, ?_, ?_, ?_, ?_, ?_, ?_⟩
  · rintro rfl
    exact ⟨placed_min_le hx, fun v _ => (hneighbour v).1⟩
  · rintro rfl
    exact ⟨le_placed_max hx, fun v _ => (hneighbour v).2⟩
  · rintro rfl
    obtain ⟨hle, hlargest⟩ := refGrid_minmag (F := F) (sign := sign) hx
    rw [abs_placed, abs_placed, Nat.abs_cast, abs_of_nonneg hy, div_mul_cancel₀ _ h2.ne']
    exact ⟨hle, fun v _ => hlargest v⟩
  · exact fun hm v _ => refGrid_nearest_le hx hm v
  · rintro rfl ⟨v, -, hne, heq⟩
    have heven : (refGrid F .ne sign x).q % 2 = 0 := refRound_ne_even (half_of_value_tie hx (.inl rfl) hne heq)
    simp [heven]
  · rintro rfl ⟨v, -, hne, heq⟩
    rw [abs_placed, abs_placed, Nat.abs_cast, abs_of_nonneg hy]
    exact mul_lt_mul_of_pos_right (lt_refRound_nmm hy (half_of_value_tie hx (.inr rfl) hne heq)) h2
  · rintro rfl
    refine ⟨fun hne => decide_eq_true (refRound_stk_odd hy fun h => hne (congrArg _ h)), fun v _ => ?_⟩
    obtain ⟨hbelow, habove⟩ := hneighbour v
    exact ⟨fun ⟨hlt, hle⟩ => hlt.not_ge (hbelow hle), fun ⟨hle, hlt⟩ => hlt.not_ge (habove hle)⟩

end Sys2Proof.Machine

/-! PROOFS. The tables of arithmetic with an infinite or zero operand (R121 to R125, R127), the classes that exclude each other
(R86), and what a change of sign changes (R122). -/

namespace Sys2Proof.Machine

variable {F : Fmt} {m : RMode} {tp : BitVec 1} {s : State} {x a b c : Word}

/-! ### Classes -/

theorem classOf_of_isFin (h : isFin F x = true) : classOf F x = .subnormal ∨ classOf F x = .normal := by
  simpa [isFin] using h

theorem classOf_of_isZero (h : isZero F x = true) : classOf F x = .zero := by
  simpa [isZero] using h

theorem isInf_of_isZero (h : isZero F x = true) : isInf F x = false := isInf_of_isNumber (.inr h)

theorem isInf_of_isFin (h : isFin F x = true) : isInf F x = false := isInf_of_isNumber (.inl h)

theorem isZero_of_isInf (h : isInf F x = true) : isZero F x = false := by
  have hc : classOf F x = .inf := by simpa [isInf] using h
  simp [isZero, hc]

theorem isZero_of_isFin (h : isFin F x = true) : isZero F x = false := by
  obtain hc | hc := classOf_of_isFin h <;> simp [isZero, hc]

theorem isNaN_of_isFin (h : isFin F x = true) : isNaN F x = false := by
  obtain hc | hc := classOf_of_isFin h <;> simp [isNaN, hc]

theorem isNaN_of_isZero (h : isZero F x = true) : isNaN F x = false := by
  simp [isNaN, classOf_of_isZero h]

/-! ### The sign inverted -/

@[simp] theorem signOf_flipSign (F : Fmt) (x : Word) : signOf F (flipSign F x) = !signOf F x := by
  have hlt : 2 ^ (F.k - 1) < 2 ^ F.k := Nat.pow_lt_pow_right (by decide) (by have := F.k_pos; omega)
  rw [signOf, flipSign, BitVec.toNat_xor, toNat_ofNat_of_lt F.k_le hlt, Nat.testBit_xor, Nat.testBit_two_pow_self,
    Bool.xor_true, signOf]

@[simp] theorem isInf_flipSign (F : Fmt) (x : Word) : isInf F (flipSign F x) = isInf F x := by
  rw [isInf, classOf_flipSign, isInf]

@[simp] theorem isZero_flipSign (F : Fmt) (x : Word) : isZero F (flipSign F x) = isZero F x := by
  rw [isZero, classOf_flipSign, isZero]

@[simp] theorem isFin_flipSign (F : Fmt) (x : Word) : isFin F (flipSign F x) = isFin F x := by
  rw [isFin, classOf_flipSign, isFin]

@[simp] theorem intSigOf_flipSign (F : Fmt) (x : Word) : intSigOf F (flipSign F x) = intSigOf F x := by
  simp only [intSigOf, bexpOf_eq_mag, fracOf_eq_mag, magOf_flipSign]

@[simp] theorem intExpOf_flipSign (F : Fmt) (x : Word) : intExpOf F (flipSign F x) = intExpOf F x := by
  simp only [intExpOf, bexpOf_eq_mag, magOf_flipSign]

theorem valueOf_flipSign (F : Fmt) (x : Word) : valueOf F (flipSign F x) = -valueOf F x := by
  rw [valueOf, signOf_flipSign, intSigOf_flipSign, intExpOf_flipSign, valueOf]
  cases signOf F x <;> simp

/-! ### Commands that may run -/

/-- A command of two float operands that is no misuse has its mode and its operands (R209). -/
theorem CommandOk.binary {op : ArithOp} (h : CommandOk (.arith op F) s) (hop : op ≠ .sqrt) :
    ∃ m, RMode.ofBits s.rm = some m ∧ OperandOk F s.opa ∧ OperandOk F s.opb := by
  obtain ⟨hrm, hops, -⟩ := h
  obtain ⟨m, hm⟩ := ofBits_of_lt (hrm rfl)
  cases op with
  | sqrt => exact absurd rfl hop
  | _ => exact ⟨m, hm, hops.1, hops.2.1 (by decide)⟩

/-- `ADD` and `SUB` of operands that are no NaNs are one sum, the second operand's sign inverted for `SUB` (R122). -/
theorem exec_sum {i : Instr} {op : ArithOp} {b' : Word} (hi : i.toCmd = .arith op F) (hm : RMode.ofBits s.rm = some m)
    (ha : OperandOk F s.opa) (hb : OperandOk F s.opb) (hna : isNaN F (operandOf F s.opa) = false)
    (hnb : isNaN F (operandOf F s.opb) = false)
    (hop : op = .add ∧ b' = operandOf F s.opb ∨ op = .sub ∧ b' = flipSign F (operandOf F s.opb)) :
    exec i s = .next (s.complete (addNumbers F m s.tp (operandOf F s.opa) b')) := by
  have hnan : ¬(isNaN F (operandOf F s.opa) || isNaN F (operandOf F s.opb)) = true := by simp [hna, hnb]
  rw [exec_of_toCmd hi]
  obtain ⟨rfl, rfl⟩ | ⟨rfl, rfl⟩ := hop
  · refine (runBinaryRounding_ready hm ha hb).trans ?_
    rw [addResult, if_neg hnan]
  · refine (runBinaryRounding_ready hm ha hb).trans ?_
    rw [subResult, if_neg hnan]

/-! ### Infinite and zero operands -/

theorem special_eq (v : Word) : special v = ⟨v, 0#7, .invalidate⟩ := rfl

theorem invalidOp_eq (F : Fmt) : invalidOp F = ⟨defaultNaN F, 0x10#7, .invalidate⟩ := rfl

/-- An infinity out of a zero divisor (R124). -/
theorem specialRaising_infinite_eq (v : Word) : specialRaising .infinite v = ⟨v, 0x08#7, .invalidate⟩ := rfl

theorem zeroSumSign_same (m : RMode) (s : Bool) : zeroSumSign m s s = s := if_pos rfl

theorem zeroSumSign_of_ne (m : RMode) {s1 s2 : Bool} (h : s1 ≠ s2) : zeroSumSign m s1 s2 = (m == .min) := if_neg h

/-- Settles O36: `SUB` is `ADD` of the operand with its sign inverted, and the tests of `ADD` are the clauses. -/
theorem addAndSubOfInfinitiesAndZeros : Obligations.AddAndSubOfInfinitiesAndZeros := by
  intro i s op F m sb' b' hi hm ha hb a b sa hna hnb hop gives
  obtain ⟨hb', hsign, hinf, hzero, hfin⟩ : (op = .add ∧ b' = b ∨ op = .sub ∧ b' = flipSign F b) ∧
      sb' = signOf F b' ∧ isInf F b = isInf F b' ∧ isZero F b = isZero F b' ∧ isFin F b = isFin F b' := by
    obtain ⟨rfl, rfl, rfl⟩ | ⟨rfl, rfl, rfl⟩ := hop
    · exact ⟨.inl ⟨rfl, rfl⟩, rfl, rfl, rfl, rfl⟩
    · exact ⟨.inr ⟨rfl, rfl⟩, (signOf_flipSign F b).symm, (isInf_flipSign F b).symm, (isZero_flipSign F b).symm,
        (isFin_flipSign F b).symm⟩
  have hrun : exec i s = .next (s.complete (addNumbers F m s.tp a b')) := exec_sum hi hm ha hb hna hnb hb'
  simp only [gives, hrun, hsign, hinf, hzero, hfin]
  unfold addNumbers
  refine ⟨fun hia hib hne => ?_, fun hia hib heq => ?_, fun hia hib => ?_, fun hia hib => ?_, fun hza hzb heq => ?_,
    fun hza hzb hne => ?_, fun hfa hzb => ?_, fun hza hfb => ?_⟩
  · simp [hia, hib, show signOf F a ≠ signOf F b' from hne, invalidOp_eq]
  · simp [hia, hib, ← heq, sa, special_eq]
  · simp [hia, hib, sa, special_eq]
  · simp [hia, hib, special_eq]
  · simp [hza, hzb, isInf_of_isZero, ← heq, sa, zeroSumSign_same, special_eq]
  · simp [hza, hzb, isInf_of_isZero, zeroSumSign_of_ne m (show signOf F a ≠ signOf F b' from hne), special_eq]
  · simp [isInf_of_isFin hfa, isZero_of_isFin hfa, isInf_of_isZero hzb, hzb, special_eq]
  · simp [isInf_of_isZero hza, hza, isInf_of_isFin hfb, isZero_of_isFin hfb, special_eq]

/-- Settles O38: the tests of `MUL` in their order. -/
theorem mulOfInfinitiesAndZeros : Obligations.MulOfInfinitiesAndZeros := by
  intro i s F hi hok a b sg hna hnb gives
  obtain ⟨m, hm, ha, hb⟩ := (hi ▸ hok).binary (by decide)
  have hrun : exec i s = .next (s.complete (mulResult F m s.tp a b)) :=
    (exec_of_toCmd hi s).trans (runBinaryRounding_ready hm ha hb)
  simp only [gives, hrun]
  unfold mulResult
  refine ⟨fun hia hzb => ?_, fun hza hib => ?_, fun hia hzb => ?_, fun hza hib => ?_, fun hza hib => ?_,
    fun hia hzb => ?_⟩
  · simp [hna, hnb, hia, hzb, invalidOp_eq]
  · simp [hna, hnb, hza, hib, invalidOp_eq]
  · simp [hna, hnb, hia, isZero_of_isInf hia, hzb, sg, special_eq]
  · simp [hna, hnb, hza, hib, isZero_of_isInf hib, sg, special_eq]
  · simp [hna, hnb, hza, isInf_of_isZero hza, hib, sg, special_eq]
  · simp [hna, hnb, hia, hzb, isInf_of_isZero hzb, sg, special_eq]

/-- Settles O39: the tests of `DIV` in their order; that of a zero divisor comes after those of the infinities. -/
theorem divOfInfinitiesAndZeros : Obligations.DivOfInfinitiesAndZeros := by
  intro i s F hi hok a b sg hna hnb gives
  obtain ⟨m, hm, ha, hb⟩ := (hi ▸ hok).binary (by decide)
  have hrun : exec i s = .next (s.complete (divResult F m s.tp a b)) :=
    (exec_of_toCmd hi s).trans (runBinaryRounding_ready hm ha hb)
  simp only [gives, hrun]
  unfold divResult
  refine ⟨fun hia hib => ?_, fun hia hib => ?_, fun hia hib => ?_, fun hza hzb => ?_, fun hfa hzb => ?_,
    fun hza hfb => ?_⟩
  · simp [hna, hnb, hia, hib, invalidOp_eq]
  · simp [hna, hnb, hia, hib, sg, special_eq]
  · simp [hna, hnb, hia, hib, sg, special_eq]
  · simp [hna, hnb, isInf_of_isZero, hza, hzb, invalidOp_eq]
  · simp [hna, hnb, isInf_of_isFin hfa, isZero_of_isFin hfa, isInf_of_isZero hzb, hzb, sg, specialRaising_infinite_eq]
  · simp [hna, hnb, isInf_of_isZero hza, hza, isInf_of_isFin hfb, isZero_of_isFin hfb, sg, special_eq]

/-- Settles O41: the tests of `REM` in their order. -/
theorem remOfInfinitiesAndZeros : Obligations.RemOfInfinitiesAndZeros := by
  intro i s F hi hok a b hna hnb gives
  obtain ⟨m, hm, ha, hb⟩ := (hi ▸ hok).binary (by decide)
  have hrun : exec i s = .next (s.complete (remResult F m s.tp a b)) :=
    (exec_of_toCmd hi s).trans (runBinaryRounding_ready hm ha hb)
  simp only [gives, hrun]
  unfold remResult
  refine ⟨fun hia => ?_, fun hzb => ?_, fun hia hib => ?_, fun hza hzb => ?_⟩
  · simp [hna, hnb, hia, invalidOp_eq]
  · simp [hna, hnb, hzb, invalidOp_eq]
  · simp [hna, hnb, hia, hib, isZero_of_isInf hib, special_eq]
  · simp [hna, hnb, hza, isInf_of_isZero hza, hzb, special_eq]

/-- Settles O44: the tests of `FMA` in their order. -/
theorem fmaOfInfinitiesAndZeros : Obligations.FmaOfInfinitiesAndZeros := by
  intro i s F m hi hm ha hb hc
  rw [exec_of_toCmd hi, show runCmd (.arith .fma F) s = _ from runTernaryRounding_ready hm ha hb hc]
  dsimp only
  intro hna hnb hnc
  simp only [fmaResult, hna, hnb, hnc]
  refine ⟨fun hip hzf => ?_, fun hip hzf hic hne => ?_, fun hip hzf hsign => ?_, fun hip hic => ?_,
    fun hip hzf hfc => ?_, fun hip hzf hzc heq => ?_, fun hip hzf hzc hne => ?_⟩
  · simp only [hip, hzf]
    rfl
  · simp only [hip, hzf, hic, bne_iff_ne.mpr hne]
    rfl
  · have hsame : (isInf F (operandOf F s.opc) && signOf F (operandOf F s.opc) !=
        (signOf F (operandOf F s.opa) ^^ signOf F (operandOf F s.opb))) = false := by
      simpa using hsign
    simp only [hip, hzf, hsame]
    rfl
  · simp only [hip, hic]
    rfl
  · simp only [hip, hzf, isInf_of_isFin hfc, isZero_of_isFin hfc]
    rfl
  · simp only [hip, hzf, isInf_of_isZero hzc, hzc, ← heq, zeroSumSign_same]
    rfl
  · simp only [hip, hzf, isInf_of_isZero hzc, hzc, zeroSumSign_of_ne m hne]
    rfl

end Sys2Proof.Machine

/-! PROOFS. The exact intermediates of `ADD`, `SUB`, `MUL`, `DIV`, `SQRT` and `FMA`: each stands for the real result of the
operation, so that the rounding pass rounds that result once (R100, R121 to R124, R126 to R128). -/

namespace Sys2Proof.Machine

variable {F : Fmt} {m : RMode} {tp : BitVec 1} {s : State} {sg s1 s2 : Bool} {N : Nat} {M1 M2 e1 e2 g g' : Int}
  {x W W' : ℝ} {a b c : Word}

/-! ### Values by sign, significand and exponent -/

theorem valueOf_eq_placed (F : Fmt) (y : Word) : valueOf F y = placed (signOf F y) (intExpOf F y) (intSigOf F y) := by
  rw [valueOf, placed, mul_assoc]

theorem placed_mul : placed s1 g W * placed s2 g' W' = placed (s1 ^^ s2) (g + g') (W * W') := by
  unfold placed
  rw [zpow_add₀ two_ne_zero]
  cases s1 <;> cases s2 <;> simp <;> ring

theorem placed_div : placed s1 g W / placed s2 g' W' = placed (s1 ^^ s2) (g - g') (W / W') := by
  unfold placed
  rw [zpow_sub₀ two_ne_zero]
  cases s1 <;> cases s2 <;> simp <;> ring

/-- The sign of a place is that of the number placed (R84). -/
theorem placed_neg_iff (hW : 0 < W) : placed sg g W < 0 ↔ sg = true := by
  have hpos : 0 < W * 2 ^ g := by positivity
  cases sg
  · simp [placed, hpos.le]
  · simp [placed, hpos]

theorem placed_ne_zero (hW : 0 < W) : placed sg g W ≠ 0 := by
  have hpos : 0 < W * 2 ^ g := by positivity
  cases sg <;> simp [placed, hpos.ne']

/-- A signed integer significand is the significand placed with its sign (R84, R121). -/
theorem signed_mul_eq_placed (sg : Bool) (N : Nat) (g : Int) :
    ((if sg then -(N : Int) else N : Int) : ℝ) * 2 ^ g = placed sg g N := by
  cases sg <;> simp [placed]

theorem signedSig_mul_eq_valueOf (F : Fmt) (y : Word) : (signedSig F y : ℝ) * 2 ^ intExpOf F y = valueOf F y := by
  rw [valueOf_eq_placed, ← signed_mul_eq_placed, signedSig]

theorem intSigOf_cast_pos (h : isFin F a = true) : (0 : ℝ) < intSigOf F a := by
  exact_mod_cast intSigOf_pos_of_isFin h

theorem intSigOf_of_isZero (h : isZero F a = true) : intSigOf F a = 0 := by
  have hc := classOf_of_isZero h
  obtain ⟨hbe, hfrac⟩ := (finite_classes (by simp [hc])).2.2.mp hc
  rw [intSigOf, if_pos hbe, hfrac]

theorem valueOf_of_isZero (h : isZero F a = true) : valueOf F a = 0 := by
  simp [valueOf, intSigOf_of_isZero h]

/-! ### Sums -/

/-- An exact intermediate without sticky is rounded as the number it is (R100). -/
theorem roundPack_exact (hN : 0 < N) (hx : x = N * 2 ^ g) :
    roundPack F m tp sg N g false = refRoundPack F m tp sg x :=
  roundPackRoundsTheRealNumber F m tp sg N g false x ⟨hN, hx⟩

/-- What a sum of value `x` and sign `sg` leaves: `x` rounded once, and of an exact zero `+0`, or `-0` in mode `MIN`, with
no flag and no record (R121, R128). -/
def RoundsSum (F : Fmt) (m : RMode) (tp : BitVec 1) (sg : Bool) (x : ℝ) (d : Completion) : Prop :=
  (x ≠ 0 → d = refRoundPack F m tp sg |x|) ∧ (x = 0 → d = ⟨zeroOf F (m == .min), 0#7, .invalidate⟩)

/-- A term aligned at a smaller exponent keeps its value (R121). -/
theorem aligned_term {M e' e : Int} (h : e ≤ e') :
    ((M * 2 ^ (e' - e).toNat : Int) : ℝ) * 2 ^ e = M * 2 ^ e' := by
  obtain ⟨n, rfl⟩ : ∃ n : Nat, e' = e + n := ⟨(e' - e).toNat, by omega⟩
  rw [show (e + n - e).toNat = n by omega, zpow_add₀ two_ne_zero, zpow_natCast]
  push_cast
  ring

theorem aligned_sum :
    ((M1 * 2 ^ (e1 - min e1 e2).toNat + M2 * 2 ^ (e2 - min e1 e2).toNat : Int) : ℝ) * 2 ^ min e1 e2 =
      M1 * 2 ^ e1 + M2 * 2 ^ e2 := by
  rw [Int.cast_add, add_mul, aligned_term (min_le_left e1 e2), aligned_term (min_le_right e1 e2)]

/-- An exact zero sum has terms of opposite signs (R128). -/
theorem signs_ne_of_sum_zero (hM : M1 ≠ 0) (h1 : s1 = true ↔ M1 < 0) (h2 : s2 = true ↔ M2 < 0)
    (h : (M1 : ℝ) * 2 ^ e1 + M2 * 2 ^ e2 = 0) : s1 ≠ s2 := by
  have hp1 : (0 : ℝ) < 2 ^ e1 := by positivity
  have hp2 : (0 : ℝ) < 2 ^ e2 := by positivity
  rintro rfl
  obtain hneg | hpos := hM.lt_or_gt
  · have hneg1 : (M1 : ℝ) * 2 ^ e1 < 0 := mul_neg_of_neg_of_pos (by exact_mod_cast hneg) hp1
    have hneg2 : (M2 : ℝ) * 2 ^ e2 < 0 := mul_neg_of_neg_of_pos (by exact_mod_cast h2.mp (h1.mpr hneg)) hp2
    linarith
  · have hnn : 0 ≤ M2 := not_lt.mp fun hlt => hpos.not_gt (h1.mp (h2.mpr hlt))
    have hpos1 : (0 : ℝ) < M1 * 2 ^ e1 := mul_pos (by exact_mod_cast hpos) hp1
    have hpos2 : (0 : ℝ) ≤ M2 * 2 ^ e2 := mul_nonneg (by exact_mod_cast hnn) hp2.le
    linarith

/-- The sum of two exact terms is rounded once (R121, R127). -/
theorem sumResult_rounds (hM : M1 ≠ 0) (h1 : s1 = true ↔ M1 < 0) (h2 : s2 = true ↔ M2 < 0)
    (hx : x = M1 * 2 ^ e1 + M2 * 2 ^ e2) (hsg : sg = true ↔ x < 0) :
    RoundsSum F m tp sg x (sumResult F m tp s1 s2 M1 e1 M2 e2) := by
  have hsum := hx.trans aligned_sum.symm
  unfold sumResult
  extract_lets e M
  have h2e : (0 : ℝ) < 2 ^ e := by positivity
  have hxM : x = M * 2 ^ e := hsum
  refine ⟨fun hne => ?_, fun h0 => ?_⟩
  · have hM0 : M ≠ 0 := by
      rintro h
      exact hne (by rw [hxM, h, Int.cast_zero, zero_mul])
    have hsign : decide (M < 0) = sg := by
      rw [Bool.eq_iff_iff, decide_eq_true_iff, hsg, hxM, ← lt_div_iff₀ h2e, zero_div, Int.cast_lt_zero]
    rw [if_neg hM0, hsign]
    refine roundPack_exact (Int.natAbs_pos.mpr hM0) ?_
    rw [hxM, abs_mul, abs_of_pos h2e, Nat.cast_natAbs, Int.cast_abs]
  · have hM0 : M = 0 := by
      have h := hxM.symm.trans h0
      rw [mul_eq_zero, or_iff_left h2e.ne'] at h
      exact_mod_cast h
    rw [if_pos hM0, zeroSumSign_of_ne m (signs_ne_of_sum_zero hM h1 h2 (hx.symm.trans h0)), special_eq]

theorem signedSig_neg_iff (h : isFin F a = true) : signOf F a = true ↔ signedSig F a < 0 := by
  have hpos := intSigOf_pos_of_isFin h
  unfold signedSig
  split <;> simp_all

theorem signedSig_ne_zero (h : isFin F a = true) : signedSig F a ≠ 0 := by
  have hpos := intSigOf_pos_of_isFin h
  rw [← Int.natAbs_ne_zero, natAbs_signedSig]
  omega

/-- `ADD` of finite nonzero operands (R121). -/
theorem addNumbers_rounds (ha : isFin F a = true) (hb : isFin F b = true) (hx : x = valueOf F a + valueOf F b)
    (hsg : sg = true ↔ x < 0) : RoundsSum F m tp sg x (addNumbers F m tp a b) := by
  have hsum : addNumbers F m tp a b = sumResult F m tp (signOf F a) (signOf F b) (signedSig F a) (intExpOf F a)
      (signedSig F b) (intExpOf F b) := by
    simp [addNumbers, isInf_of_isFin ha, isInf_of_isFin hb, isZero_of_isFin ha, isZero_of_isFin hb]
  rw [hsum]
  refine sumResult_rounds (signedSig_ne_zero ha) (signedSig_neg_iff ha) (signedSig_neg_iff hb) ?_ hsg
  rw [signedSig_mul_eq_valueOf, signedSig_mul_eq_valueOf, hx]

/-- A command that completes with a rounded sum. -/
theorem RoundsSum.complete {i : Instr} {d : Completion} (h : RoundsSum F m s.tp sg x d)
    (hrun : exec i s = .next (s.complete d)) :
    (x ≠ 0 → exec i s = .next (s.complete (refRoundPack F m s.tp sg |x|))) ∧
      (x = 0 → exec i s = .next (s.complete ⟨zeroOf F (m == .min), 0#7, .invalidate⟩)) :=
  ⟨fun hne => h.1 hne ▸ hrun, fun h0 => h.2 h0 ▸ hrun⟩

/-- Settles O35: `SUB` adds the operand of opposite sign, whose value is the opposite. -/
theorem addAndSubRoundTheExactSum : Obligations.AddAndSubRoundTheExactSum := by
  intro i s op F m x sg hi hm ha hb hfa hfb hx hsg
  obtain ⟨b', hop, hfb', hx'⟩ : ∃ b', (op = .add ∧ b' = operandOf F s.opb ∨
      op = .sub ∧ b' = flipSign F (operandOf F s.opb)) ∧ isFin F b' = true ∧
      x = valueOf F (operandOf F s.opa) + valueOf F b' := by
    obtain ⟨rfl, hx⟩ | ⟨rfl, hx⟩ := hx
    · exact ⟨_, .inl ⟨rfl, rfl⟩, hfb, hx⟩
    · exact ⟨_, .inr ⟨rfl, rfl⟩, (isFin_flipSign F _).trans hfb, by rw [hx, valueOf_flipSign, sub_eq_add_neg]⟩
  exact (addNumbers_rounds hfa hfb' hx' hsg).complete
    (exec_sum hi hm ha hb (isNaN_of_isFin hfa) (isNaN_of_isFin hfb) hop)

/-! ### Products and quotients -/

theorem valueOf_mul (F : Fmt) (a b : Word) : valueOf F a * valueOf F b =
    placed (signOf F a ^^ signOf F b) (intExpOf F a + intExpOf F b) ((intSigOf F a * intSigOf F b : Nat) : ℝ) := by
  rw [valueOf_eq_placed, valueOf_eq_placed, placed_mul, Nat.cast_mul]

/-- `MUL` of finite nonzero operands (R123). -/
theorem mulResult_rounds (ha : isFin F a = true) (hb : isFin F b = true) :
    mulResult F m tp a b = refRoundPack F m tp (signOf F a ^^ signOf F b) |valueOf F a * valueOf F b| := by
  have hround := roundPack_exact (F := F) (m := m) (tp := tp) (sg := signOf F a ^^ signOf F b)
    (Nat.mul_pos (intSigOf_pos_of_isFin ha) (intSigOf_pos_of_isFin hb))
    (show |valueOf F a * valueOf F b| = _ by rw [valueOf_mul, abs_placed, Nat.abs_cast])
  simp [mulResult, isNaN_of_isFin ha, isNaN_of_isFin hb, isInf_of_isFin ha, isInf_of_isFin hb, isZero_of_isFin ha,
    isZero_of_isFin hb, hround]

/-- Enough bits for a sticky (R100). -/
theorem le_bitlen_of_le (h : 2 ^ (F.p + 1) ≤ N) : F.p + 2 ≤ bitlen N :=
  (Nat.pow_lt_pow_iff_right (by decide : 1 < 2)).mp (h.trans_lt (lt_two_pow_bitlen N))

/-- An integer quotient with enough bits, its sticky telling whether there is a remainder, stands for the exact quotient
(R100, R124). -/
theorem standsFor_quotient {n d : Nat} (hd : 0 < d) (hbits : 2 ^ (F.p + 1) ≤ n / d) (hx : x = (n / d : ℝ) * 2 ^ g) :
    StandsFor F (n / d) g (n % d != 0) x := by
  have h2g : (0 : ℝ) < 2 ^ g := by positivity
  have hd' : (0 : ℝ) < d := by exact_mod_cast hd
  have hsplit : (n : ℝ) = (n / d : Nat) * d + (n % d : Nat) := by exact_mod_cast (Nat.div_add_mod' n d).symm
  have hquot : (n : ℝ) / d = (n / d : Nat) + (n % d : Nat) / d := by rw [hsplit]; field_simp
  refine ⟨(Nat.two_pow_pos _).trans_le hbits, ?_⟩
  rw [hx, hquot, mul_lt_mul_iff_left₀ h2g, mul_lt_mul_iff_left₀ h2g]
  obtain h0 | hpos := Nat.eq_zero_or_pos (n % d)
  · simp [h0]
  · have hlt : ((n % d : Nat) : ℝ) / d < 1 := (div_lt_one hd').mpr (by exact_mod_cast Nat.mod_lt n hd)
    have hpos' : (0 : ℝ) < (n % d : Nat) / d := div_pos (by exact_mod_cast hpos) hd'
    rw [if_pos (by simpa using hpos.ne')]
    exact ⟨le_bitlen_of_le hbits, by linarith, by linarith⟩

/-- The quotient of significands taken with `2p + 2` more bits has more than `p + 1` of them (R124). -/
theorem le_quotient (ha : isFin F a = true) (hb : isFin F b = true) :
    2 ^ (F.p + 1) ≤ intSigOf F a * 2 ^ (2 * F.p + 2) / intSigOf F b := by
  rw [Nat.le_div_iff_mul_le (intSigOf_pos_of_isFin hb)]
  calc 2 ^ (F.p + 1) * intSigOf F b ≤ 2 ^ (F.p + 1) * 2 ^ F.p := Nat.mul_le_mul_left _ (intSigOf_lt F b).le
    _ ≤ 2 ^ (2 * F.p + 2) := by rw [← pow_add]; exact Nat.pow_le_pow_right (by decide) (by omega)
    _ ≤ intSigOf F a * 2 ^ (2 * F.p + 2) := Nat.le_mul_of_pos_left _ (intSigOf_pos_of_isFin ha)

/-- `DIV` of finite nonzero operands (R124). -/
theorem divResult_rounds (ha : isFin F a = true) (hb : isFin F b = true) :
    divResult F m tp a b = refRoundPack F m tp (signOf F a ^^ signOf F b) |valueOf F a / valueOf F b| := by
  have hquot : |valueOf F a / valueOf F b| =
      ((intSigOf F a * 2 ^ (2 * F.p + 2) : Nat) / (intSigOf F b : Nat) : ℝ) *
        2 ^ (intExpOf F a - intExpOf F b - (2 * F.p + 2 : Nat)) := by
    have hpos : (0 : ℝ) ≤ intSigOf F a / intSigOf F b := by positivity
    rw [valueOf_eq_placed, valueOf_eq_placed, placed_div, abs_placed, abs_of_nonneg hpos, zpow_sub₀ two_ne_zero _
      ((2 * F.p + 2 : Nat) : Int), zpow_natCast, Nat.cast_mul, Nat.cast_pow, Nat.cast_ofNat]
    field_simp
  have hround := roundPackRoundsTheRealNumber F m tp (signOf F a ^^ signOf F b) _ _ _ _
    (standsFor_quotient (intSigOf_pos_of_isFin hb) (le_quotient ha hb) hquot)
  rw [← hround]
  simp [divResult, isNaN_of_isFin ha, isNaN_of_isFin hb, isInf_of_isFin ha, isInf_of_isFin hb, isZero_of_isFin ha,
    isZero_of_isFin hb]

/-- Settles O37: the product of the significands is exact, and the quotient stands for the exact one. -/
theorem mulAndDivRoundTheExactResult : Obligations.MulAndDivRoundTheExactResult := by
  intro i s op F m x hi hm ha hb a b hfa hfb hx
  rw [exec_of_toCmd hi]
  obtain ⟨rfl, rfl⟩ | ⟨rfl, rfl⟩ := hx
  · rw [← mulResult_rounds hfa hfb]
    exact runBinaryRounding_ready hm ha hb
  · rw [← divResult_rounds hfa hfb]
    exact runBinaryRounding_ready hm ha hb

/-! ### Square roots -/

/-- The integer square root with enough bits, its sticky telling whether the radicand is no square, stands for the exact
root (R100, R126). -/
theorem standsFor_isqrt {n : Nat} (hbits : 2 ^ (F.p + 1) ≤ isqrt n) (hx : x = Real.sqrt n * 2 ^ g) :
    StandsFor F (isqrt n) g (isqrt n * isqrt n != n) x := by
  have h2g : (0 : ℝ) < 2 ^ g := by positivity
  obtain ⟨hle, hlt⟩ := isqrt_spec n
  refine ⟨(Nat.two_pow_pos _).trans_le hbits, ?_⟩
  rw [hx, mul_lt_mul_iff_left₀ h2g, mul_lt_mul_iff_left₀ h2g]
  by_cases hsq : isqrt n * isqrt n = n
  · have hroot : Real.sqrt n = isqrt n := by
      rw [Real.sqrt_eq_iff_mul_self_eq (by positivity) (by positivity)]
      exact_mod_cast hsq.symm
    simp [hsq, hroot]
  · rw [if_pos (by simpa using hsq)]
    refine ⟨le_bitlen_of_le hbits, (Real.lt_sqrt (by positivity)).mpr ?_, (Real.sqrt_lt' (by positivity)).mpr ?_⟩
    · rw [pow_two]
      exact_mod_cast lt_of_le_of_ne hle hsq
    · rw [pow_two]
      exact_mod_cast hlt

theorem le_isqrt_scaled {n k : Nat} (hn : 0 < n) (hk : 2 * F.p + 2 ≤ k) : 2 ^ (F.p + 1) ≤ isqrt (n * 2 ^ k) := by
  rw [isqrt_eq_sqrt, Nat.le_sqrt, ← pow_add]
  calc 2 ^ (F.p + 1 + (F.p + 1)) ≤ 2 ^ k := Nat.pow_le_pow_right (by decide) (by omega)
    _ ≤ n * 2 ^ k := Nat.le_mul_of_pos_left _ hn

/-- A radicand scaled so that its exponent is even: the root's exponent is the half (R126). -/
theorem sqrt_scaled {n k : Nat} {e h : Int} (hh : e - k = h + h) :
    Real.sqrt (n * 2 ^ e) = Real.sqrt ((n * 2 ^ k : Nat) : ℝ) * 2 ^ h := by
  have h2 : (0 : ℝ) ≤ 2 ^ h := by positivity
  have hsq : (n : ℝ) * 2 ^ e = (n * 2 ^ k : Nat) * (2 ^ h * 2 ^ h) := by
    rw [← zpow_add₀ two_ne_zero, ← hh, Nat.cast_mul, Nat.cast_pow, Nat.cast_ofNat, mul_assoc, ← zpow_natCast,
      ← zpow_add₀ two_ne_zero, add_sub_cancel]
  rw [hsq, Real.sqrt_mul (by positivity), Real.sqrt_mul_self h2]

/-- `SQRT` of a positive finite operand (R126). -/
theorem sqrtResult_rounds (ha : isFin F a = true) (hs : signOf F a = false) :
    sqrtResult F m tp a = refRoundPack F m tp false (Real.sqrt (valueOf F a)) := by
  have hvalue : valueOf F a = intSigOf F a * 2 ^ intExpOf F a := by simp [valueOf, hs]
  have hround : ∀ k : Nat, 2 * F.p + 2 ≤ k → (intExpOf F a - k) % 2 = 0 →
      roundPack F m tp false (isqrt (intSigOf F a * 2 ^ k)) ((intExpOf F a - k) / 2)
        (isqrt (intSigOf F a * 2 ^ k) * isqrt (intSigOf F a * 2 ^ k) != intSigOf F a * 2 ^ k) =
      refRoundPack F m tp false (Real.sqrt (valueOf F a)) := fun k hk heven => by
    refine roundPackRoundsTheRealNumber F m tp false _ _ _ _
      (standsFor_isqrt (le_isqrt_scaled (intSigOf_pos_of_isFin ha) hk) ?_)
    rw [hvalue]
    exact sqrt_scaled (by omega)
  unfold sqrtResult
  extract_lets ea k n r
  simp only [isNaN_of_isFin ha, isZero_of_isFin ha, hs, isInf_of_isFin ha]
  refine hround k ?_ ?_
  · simp only [k]
    split <;> omega
  · simp only [k, ea]
    split <;> omega

/-- Settles O42: the tests of `SQRT` in their order, and last the root. -/
theorem sqrtRoundsTheRoot : Obligations.SqrtRoundsTheRoot := by
  intro i s F m hi hm ha a hna
  have hrun : exec i s = .next (s.complete (sqrtResult F m s.tp a)) :=
    (exec_of_toCmd hi s).trans (runUnaryRounding_ready hm ha)
  simp only [hrun]
  refine ⟨fun hfa hs => by rw [sqrtResult_rounds hfa hs], fun hza => ?_, fun hia hs => ?_, fun hza hs => ?_⟩
  · simp [sqrtResult, hna, hza, special_eq]
  · simp [sqrtResult, hna, isZero_of_isInf hia, hs, hia, special_eq]
  · simp [sqrtResult, hna, hza, hs, invalidOp_eq]

/-! ### Fused multiply-add -/

/-- `FMA` of finite nonzero factors and a finite or zero addend (R127). -/
theorem fmaResult_rounds (ha : isFin F a = true) (hb : isFin F b = true) (hc : isFin F c = true ∨ isZero F c = true)
    (hx : x = valueOf F a * valueOf F b + valueOf F c) (hsg : sg = true ↔ x < 0) :
    RoundsSum F m tp sg x (fmaResult F m tp a b c) := by
  have hN : 0 < intSigOf F a * intSigOf F b := Nat.mul_pos (intSigOf_pos_of_isFin ha) (intSigOf_pos_of_isFin hb)
  have hN' : (0 : ℝ) < (intSigOf F a * intSigOf F b : Nat) := by exact_mod_cast hN
  unfold fmaResult
  extract_lets sp sc np ep
  obtain hfc | hzc := hc
  · simp only [isNaN_of_isFin ha, isNaN_of_isFin hb, isNaN_of_isFin hfc, isInf_of_isFin ha, isInf_of_isFin hb,
      isInf_of_isFin hfc, isZero_of_isFin ha, isZero_of_isFin hb, isZero_of_isFin hfc]
    refine sumResult_rounds ?_ ?_ (signedSig_neg_iff hfc) ?_ hsg
    · split <;> omega
    · have hnp : 0 < np := hN
      cases sp <;> simp [hnp]
    · rw [signed_mul_eq_placed, signedSig_mul_eq_valueOf, hx, valueOf_mul]
  · simp only [isNaN_of_isFin ha, isNaN_of_isFin hb, isNaN_of_isZero hzc, isInf_of_isFin ha, isInf_of_isFin hb,
      isInf_of_isZero hzc, isZero_of_isFin ha, isZero_of_isFin hb, hzc]
    have hprod : x = placed sp ep np := by rw [hx, valueOf_mul, valueOf_of_isZero hzc, add_zero]
    have hsign : sg = sp := by rw [Bool.eq_iff_iff, hsg, hprod, placed_neg_iff hN']
    refine ⟨fun _ => ?_, fun h0 => absurd (hprod.symm.trans h0) (placed_ne_zero hN')⟩
    rw [hsign]
    exact roundPack_exact hN (by rw [hprod, abs_placed, Nat.abs_cast])

/-- Settles O43: the product is one exact term of a sum, or with a zero addend all of it. -/
theorem fmaRoundsOnce : Obligations.FmaRoundsOnce := by
  intro i s F m sg hi hm ha hb hc a b c x hfa hfb hnc hsg
  exact (fmaResult_rounds hfa hfb hnc rfl hsg).complete
    ((exec_of_toCmd hi s).trans (runTernaryRounding_ready hm ha hb hc))

end Sys2Proof.Machine

/-! PROOFS. `REM` (R125): the integer remainder computed is that of the nearest quotient, the even one on a tie, and it is a
value of the format, so that the rounding pass delivers it unchanged. -/

namespace Sys2Proof.Machine

variable {F : Fmt} {m : RMode} {tp : BitVec 1} {s : State} {sg s1 s2 : Bool} {N A B : Nat} {e R : Int} {n : ℤ} {x : ℝ}
  {a b : Word}

/-! ### Values of the format -/

/-- An exact number of units of its grid is not changed, in any mode (R112). -/
theorem refRound_natCast (m : RMode) (sg : Bool) (N : Nat) : refRound m sg N = ⟨N, false, false⟩ := by
  cases m <;> simp [refRound]

/-- A number of at most `p` bits, in the range of the format's exponents, is delivered as it is, with `Tiny` alone if it
is subnormal (R112). -/
theorem refRoundPack_representable (hN : 0 < N) (hp : N < 2 ^ F.p) (hlo : F.emin - F.p + 1 ≤ e)
    (hhi : e ≤ F.emax - F.p + 1) (hx : x = N * 2 ^ e) :
    (isFin F (refRoundPack F m tp sg x).res = true ∨ isZero F (refRoundPack F m tp sg x).res = true) ∧
      valueOf F (refRoundPack F m tp sg x).res = placed sg e N ∧
      (refRoundPack F m tp sg x).fl = if x < (2 : ℝ) ^ F.emin then 0x40#7 else 0#7 := by
  have hstands : StandsFor F N e false x := ⟨hN, hx⟩
  have hpos : 0 < x := hstands.pos
  have hlog : Int.log 2 x = e + bitlen N - 1 := hstands.unroundedExp_eq.symm
  have hlen := bitlen_le_of_lt hp
  have hu : (refUnbounded F m sg x).Eu = Int.log 2 x := by
    rw [← hstands.roundUnbounded_eq, roundUnbounded_exact hp, hstands.unroundedExp_eq]
  have hov : ¬Overflows F m sg x := fun ⟨_, h⟩ => by omega
  obtain ⟨k, hk⟩ : ∃ k : Nat, e = k + gridExp F x := ⟨(e - gridExp F x).toNat, by unfold gridExp; omega⟩
  have hscaled : x = (N * 2 ^ k : Nat) * 2 ^ gridExp F x := by
    calc x = N * 2 ^ e := hx
      _ = _ := by rw [hk, zpow_add₀ two_ne_zero, zpow_natCast, ← mul_assoc, Nat.cast_mul, Nat.cast_pow, Nat.cast_ofNat]
  have hgrid : refGrid F m sg x = ⟨N * 2 ^ k, false, false⟩ := by
    rw [refGrid, ← refRound_natCast m sg, eq_div_of_mul_eq (by positivity) hscaled.symm]
  obtain ⟨henc, hfl⟩ := refRoundPack_inRange (tp := tp) hpos hov
  rw [hgrid] at henc hfl
  have htiny : refTiny F m tp sg x = decide (x < (2 : ℝ) ^ F.emin) := by
    have hlt : x < (2 : ℝ) ^ F.emin ↔ Int.log 2 x < F.emin := by exact_mod_cast Int.lt_zpow_iff_log_lt one_lt_two hpos
    rw [refTiny, hu, isTiny, ite_self, decide_eq_decide, hlt]
  refine ⟨henc.number, ?_, ?_⟩
  · rw [henc.value, ← hscaled, hx, placed]
  · rw [hfl, htiny]
    by_cases h : x < (2 : ℝ) ^ F.emin <;> simp [h, passFlags, raiseIf, Flag.mask, Flag.bit]

/-- The exponents of the finite values of the format (R80, R84). -/
theorem intExpOf_le (h : isFin F a = true) : intExpOf F a ≤ F.emax - F.p + 1 := by
  have hne : bexpOf F a ≠ F.expMax :=
    (isNumber_iff (by obtain hc | hc := classOf_of_isFin h <;> simp [hc])).mp (.inl h)
  have hlt : bexpOf F a < 2 ^ F.w := Nat.mod_lt _ (Nat.two_pow_pos _)
  have hw := F.two_pow_w
  have hmax := F.expMax_eq
  have hp := F.p_eq
  have hbias := F.bias_pos
  unfold intExpOf Fmt.emax
  split
  · unfold Fmt.emin
    omega
  · omega

theorem isZero_zeroOf (F : Fmt) (s : Bool) : isZero F (zeroOf F s) = true := by cases F <;> cases s <;> decide

/-! ### The nearest quotient -/

/-- The remainder of `A` by the multiple of `B` nearest to it, the even multiple on a tie, as `REM` computes it from the
quotient and remainder of the division (R125). -/
def nearestRem (A B : Nat) : Int :=
  if B < 2 * (A % B) || (2 * (A % B) == B && A / B % 2 == 1) then ((A % B : Nat) : Int) - B else (A % B : Nat)

theorem natAbs_nearestRem_le (A : Nat) (hB : 0 < B) : (nearestRem A B).natAbs ≤ A ∧ (nearestRem A B).natAbs ≤ B := by
  have hlt := Nat.mod_lt A hB
  have hle := Nat.mod_le A B
  unfold nearestRem
  split
  · rename_i h
    have hhalf : B ≤ 2 * (A % B) := by
      simp only [Bool.or_eq_true, Bool.and_eq_true, decide_eq_true_iff, beq_iff_eq] at h
      omega
    omega
  · omega

/-- The nearest multiple is unique, with the even one on a tie: it is the quotient's or the next (R125). -/
theorem nearestRem_unique (hB : 0 < B) (hnear : 2 * |(A : Int) - n * B| ≤ B)
    (htie : 2 * |(A : Int) - n * B| = B → Even n) : nearestRem A B = A - n * B := by
  have hB' : (0 : Int) < B := by exact_mod_cast hB
  have hr : ((A % B : Nat) : Int) < B := by exact_mod_cast Nat.mod_lt A hB
  obtain ⟨d, rfl⟩ : ∃ d : Int, n = (A / B : Nat) + d := ⟨n - (A / B : Nat), by omega⟩
  have hsplit : (A : Int) - ((A / B : Nat) + d) * B = (A % B : Nat) - d * B := by
    have h : (A : Int) = (A / B : Nat) * B + (A % B : Nat) := by exact_mod_cast (Nat.div_add_mod' A B).symm
    linarith
  rw [hsplit] at hnear htie ⊢
  obtain ⟨hlo, hhi⟩ : -(B : Int) ≤ 2 * ((A % B : Nat) - d * B) ∧ 2 * ((A % B : Nat) - d * B) ≤ (B : Int) := by
    rw [← abs_le, abs_mul]
    exact hnear
  have hd0 : -1 < d := lt_of_mul_lt_mul_right (by linarith) hB'.le
  have hd2 : d < 2 := lt_of_mul_lt_mul_right (by linarith) hB'.le
  unfold nearestRem
  obtain rfl | rfl : d = 0 ∨ d = 1 := by omega
  · have heven : 2 * (A % B) = B → A / B % 2 = 0 := fun h => by
      have := htie (by rw [zero_mul, sub_zero, Nat.abs_cast]; exact_mod_cast h)
      rw [add_zero, Int.even_coe_nat, Nat.even_iff] at this
      exact this
    rw [if_neg]
    · omega
    · simp only [Bool.or_eq_true, Bool.and_eq_true, decide_eq_true_iff, beq_iff_eq]
      omega
  · have hodd : 2 * (A % B) = B → A / B % 2 = 1 := fun h => by
      have := htie (by rw [one_mul, abs_of_neg (by omega)]; omega)
      rw [Int.even_add_one, Int.even_coe_nat, Nat.even_iff] at this
      omega
    rw [if_pos]
    · omega
    · simp only [Bool.or_eq_true, Bool.and_eq_true, decide_eq_true_iff, beq_iff_eq]
      omega

/-! ### The remainder -/

/-- The exponent `REM` aligns its operands at (R125). -/
def remExp (F : Fmt) (a b : Word) : Int := min (intExpOf F a) (intExpOf F b)

/-- The significand of an operand in units of `2^e` (R125). -/
def sigAt (F : Fmt) (x : Word) (e : Int) : Nat := intSigOf F x * 2 ^ (intExpOf F x - e).toNat

theorem valueOf_eq_placed_sigAt (h : e ≤ intExpOf F a) : valueOf F a = placed (signOf F a) e (sigAt F a e) := by
  have halign := aligned_term (M := intSigOf F a) h
  rw [valueOf_eq_placed, placed, placed, sigAt]
  congr 1
  exact_mod_cast halign.symm

theorem sigAt_pos (h : isFin F a = true) (e : Int) : 0 < sigAt F a e :=
  Nat.mul_pos (intSigOf_pos_of_isFin h) (Nat.two_pow_pos _)

theorem sigAt_self (F : Fmt) (a : Word) : sigAt F a (intExpOf F a) = intSigOf F a := by
  rw [sigAt, sub_self, Int.toNat_zero, pow_zero, mul_one]

/-- `REM` of finite nonzero operands (R125). -/
theorem remResult_of_isFin (ha : isFin F a = true) (hb : isFin F b = true)
    (hR : nearestRem (sigAt F a (remExp F a b)) (sigAt F b (remExp F a b)) = R) :
    remResult F m tp a b = if R = 0 then special (zeroOf F (signOf F a))
      else roundPack F m tp (signOf F a ^^ decide (R < 0)) R.natAbs (remExp F a b) false := by
  subst hR
  simp only [remResult, isNaN_of_isFin ha, isNaN_of_isFin hb, isInf_of_isFin ha, isInf_of_isFin hb, isZero_of_isFin ha,
    isZero_of_isFin hb]
  rfl

/-- The remainder has no more bits than the operand of the smaller exponent, in whose units it is taken (R125). -/
theorem natAbs_remainder_lt (hb : isFin F b = true)
    (hR : nearestRem (sigAt F a (remExp F a b)) (sigAt F b (remExp F a b)) = R) : R.natAbs < 2 ^ F.p := by
  obtain ⟨hleA, hleB⟩ := natAbs_nearestRem_le (sigAt F a (remExp F a b)) (sigAt_pos hb (remExp F a b))
  rw [hR] at hleA hleB
  obtain h | h : remExp F a b = intExpOf F a ∨ remExp F a b = intExpOf F b := min_choice _ _
  · rw [h, sigAt_self] at hleA
    exact hleA.trans_lt (intSigOf_lt F a)
  · rw [h, sigAt_self] at hleB
    exact hleB.trans_lt (intSigOf_lt F b)

/-- The integer quotient of the magnitudes: that of the operands, with their signs taken out (R125). -/
def unsignedQuotient (s1 s2 : Bool) (n : ℤ) : ℤ := if s1 ^^ s2 then -n else n

theorem even_unsignedQuotient : Even (unsignedQuotient s1 s2 n) ↔ Even n := by
  unfold unsignedQuotient
  split
  · exact even_neg
  · exact Iff.rfl

theorem placed_sub_mul_placed : placed s1 e A - n * placed s2 e B =
    placed s1 e ((A - unsignedQuotient s1 s2 n * B : Int) : ℝ) := by
  unfold placed unsignedQuotient
  cases s1 <;> cases s2 <;> push_cast <;> simp <;> ring

/-- How far a quotient is from an integer, in the magnitudes (R125). -/
theorem abs_quotient_sub (hB : 0 < B) : |placed s1 e A / placed s2 e B - n| =
    ((|(A : Int) - unsignedQuotient s1 s2 n * B| : Int) : ℝ) / B := by
  have hB' : (0 : ℝ) < B := by exact_mod_cast hB
  rw [div_sub' (placed_ne_zero hB'), mul_comm _ (n : ℝ), placed_sub_mul_placed, abs_div, abs_placed, abs_placed,
    mul_div_mul_right _ _ (by positivity), Nat.abs_cast, Int.cast_abs]

/-- A nearest quotient and a tie, in integers (R125). -/
theorem quotient_near_iff (hB : 0 < B) :
    (|placed s1 e A / placed s2 e B - n| ≤ 1 / 2 ↔ 2 * |(A : Int) - unsignedQuotient s1 s2 n * B| ≤ B) ∧
      (|placed s1 e A / placed s2 e B - n| = 1 / 2 ↔ 2 * |(A : Int) - unsignedQuotient s1 s2 n * B| = B) := by
  have hB' : (0 : ℝ) < B := by exact_mod_cast hB
  rw [abs_quotient_sub hB]
  generalize |(A : Int) - unsignedQuotient s1 s2 n * B| = d
  rw [div_le_iff₀ hB', div_eq_iff hB'.ne', ← Int.cast_le (R := ℝ), ← Int.cast_inj (α := ℝ)]
  push_cast
  constructor <;> constructor <;> intro h <;> linarith

/-- In units of the smaller exponent the remainder by the nearest quotient is the integer one (R125). -/
theorem remainder_eq_placed (hb : isFin F b = true) (hnear : |valueOf F a / valueOf F b - n| ≤ 1 / 2)
    (htie : |valueOf F a / valueOf F b - n| = 1 / 2 → Even n)
    (hR : nearestRem (sigAt F a (remExp F a b)) (sigAt F b (remExp F a b)) = R) :
    valueOf F a - n * valueOf F b = placed (signOf F a) (remExp F a b) R := by
  have hB := sigAt_pos hb (remExp F a b)
  rw [valueOf_eq_placed_sigAt (a := a) (min_le_left (intExpOf F a) (intExpOf F b)),
    valueOf_eq_placed_sigAt (a := b) (min_le_right (intExpOf F a) (intExpOf F b)), ← remExp] at hnear htie ⊢
  obtain ⟨hle, heq⟩ := quotient_near_iff hB (s1 := signOf F a) (s2 := signOf F b) (e := remExp F a b) (n := n)
    (A := sigAt F a (remExp F a b))
  rw [placed_sub_mul_placed, ← hR,
    nearestRem_unique hB (hle.mp hnear) fun h => even_unsignedQuotient.mpr (htie (heq.mpr h))]

theorem placed_signed (sg : Bool) (e R : Int) :
    placed (sg ^^ decide (R < 0)) e R.natAbs = placed sg e R := by
  obtain h | h := lt_or_ge R 0
  · have habs : (R.natAbs : ℝ) = -R := by rw [Nat.cast_natAbs, abs_of_neg h, Int.cast_neg]
    cases sg <;> simp [placed, h, habs]
  · have habs : (R.natAbs : ℝ) = R := by rw [Nat.cast_natAbs, abs_of_nonneg h]
    cases sg <;> simp [placed, not_lt.mpr h, habs]

/-- Settles O40: a zero remainder is delivered apart, and any other is a value of the format. -/
theorem remIsTheExactIeeeRemainder : Obligations.RemIsTheExactIeeeRemainder := by
  intro i s F n hi hok a b q r hfa hfb hnear htie
  obtain ⟨m, hm, ha, hb⟩ := (hi ▸ hok).binary (by decide)
  obtain ⟨R, hR⟩ : ∃ R, nearestRem (sigAt F a (remExp F a b)) (sigAt F b (remExp F a b)) = R := ⟨_, rfl⟩
  have hr : r = placed (signOf F a) (remExp F a b) R := remainder_eq_placed hfb hnear htie hR
  have hrun : exec i s = .next (s.complete (remResult F m s.tp a b)) :=
    (exec_of_toCmd hi s).trans (runBinaryRounding_ready hm ha hb)
  rw [remResult_of_isFin hfa hfb hR] at hrun
  by_cases hR0 : R = 0
  · have hr0 : r = 0 := by simp [hr, hR0, placed]
    rw [if_pos hR0] at hrun
    refine ⟨_, hrun, ?_, .inr (isZero_zeroOf F _), fun _ => ⟨rfl, BitVec.or_zero, rfl⟩, fun h => absurd hr0 h⟩
    exact (valueOf_of_isZero (isZero_zeroOf F _)).trans hr0.symm
  · have hpos : 0 < R.natAbs := Int.natAbs_pos.mpr hR0
    have hsigned : r = placed (signOf F a ^^ decide (R < 0)) (remExp F a b) R.natAbs := by rw [hr, placed_signed]
    have habs : |r| = R.natAbs * 2 ^ remExp F a b := by rw [hsigned, abs_placed, Nat.abs_cast]
    have hne : r ≠ 0 := hsigned ▸ placed_ne_zero (by exact_mod_cast hpos)
    rw [if_neg hR0, roundPack_exact hpos habs] at hrun
    obtain ⟨hnumber, hvalue, hfl⟩ := refRoundPack_representable (m := m) (sg := signOf F a ^^ decide (R < 0))
      (tp := s.tp) hpos (natAbs_remainder_lt hfb hR) (le_min (le_intExpOf F a) (le_intExpOf F b))
      ((min_le_left _ _).trans (intExpOf_le hfa)) habs
    refine ⟨_, hrun, hvalue.trans hsigned.symm, hnumber, fun h => absurd h hne, fun _ => ⟨?_, rfl⟩⟩
    rw [State.complete_flags, hfl]

end Sys2Proof.Machine

/-! PROOFS. Two rules across the arithmetic commands: `ADD`, `MUL` and `FMA` do not depend on the order of their terms and
factors (R121, R123, R127), and a command raises one of ten flag sets (R129). -/

namespace Sys2Proof.Machine

variable {F : Fmt} {m : RMode} {tp : BitVec 1} {s t : State} {sign st : Bool} {N : Nat} {e : Int} {a b c : Word}

/-! ### The order of terms and factors -/

theorem nanPath_perm {xs ys : List Word} (h : xs.Perm ys) : nanPath F xs = nanPath F ys := by
  simp only [nanPath, nanSelect_perm h, nanInvalid, h.any_eq]

theorem zeroSumSign_comm (m : RMode) (s1 s2 : Bool) : zeroSumSign m s1 s2 = zeroSumSign m s2 s1 := by
  by_cases h : s1 = s2
  · rw [h]
  · rw [zeroSumSign_of_ne m h, zeroSumSign_of_ne m (Ne.symm h)]

theorem sumResult_comm (s1 s2 : Bool) (M1 e1 M2 e2 : Int) :
    sumResult F m tp s1 s2 M1 e1 M2 e2 = sumResult F m tp s2 s1 M2 e2 M1 e1 := by
  simp only [sumResult, min_comm e1 e2, zeroSumSign_comm m s1 s2,
    add_comm (M1 * 2 ^ (e1 - min e2 e1).toNat)]

theorem addNumbers_comm (a b : Word) : addNumbers F m tp a b = addNumbers F m tp b a := by
  unfold addNumbers
  cases hia : isInf F a <;> cases hib : isInf F b
  · cases hza : isZero F a <;> cases hzb : isZero F b
    · simpa using sumResult_comm _ _ _ _ _ _
    · simp
    · simp
    · simp [zeroSumSign_comm m (signOf F a)]
  · simp
  · simp
  · by_cases h : signOf F a = signOf F b
    · simp [h]
    · simp [h, Ne.symm h]

theorem addResult_comm (a b : Word) : addResult F m tp a b = addResult F m tp b a := by
  rw [addResult, addResult, addNumbers_comm, nanPath_perm (.swap b a []), Bool.or_comm]

theorem mulResult_comm (a b : Word) : mulResult F m tp a b = mulResult F m tp b a := by
  simp only [mulResult, nanPath_perm (.swap b a []), Bool.xor_comm (signOf F a), Bool.or_comm (isNaN F a),
    Bool.or_comm (isInf F a), Bool.or_comm (isZero F a), Nat.mul_comm (intSigOf F a), Int.add_comm (intExpOf F a)]

theorem fmaResult_comm (a b c : Word) : fmaResult F m tp a b c = fmaResult F m tp b a c := by
  simp only [fmaResult, nanPath_perm (.swap b a [c]), Bool.xor_comm (signOf F a), Bool.or_comm (isNaN F a),
    Bool.or_comm (isInf F a), Bool.or_comm (isZero F a), Nat.mul_comm (intSigOf F a), Int.add_comm (intExpOf F a)]

/-- A command on two operands in either order, with the registers exchanged. -/
theorem runBinaryRounding_swap {f : RMode → BitVec 1 → Word → Word → Completion}
    (hf : ∀ m tp a b, f m tp a b = f m tp b a) (h : runBinaryRounding F f s = .next t) :
    runBinaryRounding F f { s with opa := s.opb, opb := s.opa } = .next { t with opa := s.opb, opb := s.opa } := by
  obtain ⟨m, hm, h⟩ := runBinaryRounding_eq_next.mp h
  obtain ⟨ha, hb, rfl⟩ := runBinary_eq_next.mp h
  refine runBinaryRounding_eq_next.mpr ⟨m, hm, runBinary_eq_next.mpr ⟨hb, ha, ?_⟩⟩
  rw [hf]
  rfl

/-- The same with a third operand, which stays. -/
theorem runTernaryRounding_swap {f : RMode → BitVec 1 → Word → Word → Word → Completion}
    (hf : ∀ m tp a b c, f m tp a b c = f m tp b a c) (h : runTernaryRounding F f s = .next t) :
    runTernaryRounding F f { s with opa := s.opb, opb := s.opa } = .next { t with opa := s.opb, opb := s.opa } := by
  obtain ⟨m, hm, ha, hb, hc, rfl⟩ := runTernaryRounding_eq_next.mp h
  refine runTernaryRounding_eq_next.mpr ⟨m, hm, hb, ha, hc, ?_⟩
  rw [hf]
  rfl

/-- Settles O45: the result functions do not depend on the order, and the commands read both registers alike. -/
theorem addMulAndFmaAreSymmetric : Obligations.AddMulAndFmaAreSymmetric := by
  intro i s t op F hi hop h
  rw [exec_of_toCmd hi] at h ⊢
  obtain rfl | rfl | rfl := hop
  · exact runBinaryRounding_swap (fun _ _ => addResult_comm) h
  · exact runBinaryRounding_swap (fun _ _ => mulResult_comm) h
  · exact runTernaryRounding_swap (fun _ _ => fmaResult_comm) h

/-! ### The flag sets -/

/-- The ten flag sets of R129. -/
def arithFlagSets : List (BitVec 7) :=
  [0x00#7, 0x10#7, 0x08#7, 0x01#7, 0x21#7, 0x40#7, 0x43#7, 0x63#7, 0x05#7, 0x25#7]

/-- The completion raises one of the ten. -/
def Completion.RaisesListed (d : Completion) : Prop := d.fl ∈ arithFlagSets

@[simp] theorem raisesListed_special {v : Word} : (special v).RaisesListed :=
  show 0#7 ∈ arithFlagSets by decide

@[simp] theorem raisesListed_infinite {v : Word} : (specialRaising .infinite v).RaisesListed :=
  show 0x08#7 ∈ arithFlagSets by decide

@[simp] theorem raisesListed_invalidOp : (invalidOp F).RaisesListed :=
  show 0x10#7 ∈ arithFlagSets by decide

@[simp] theorem raisesListed_nanPath {xs : List Word} : (nanPath F xs).RaisesListed := by
  have h : ∀ b, raiseIf b .invalid ∈ arithFlagSets := by decide
  exact h _

/-- `Incremented` only with `Inexact`, and `Underflow` exactly with `Tiny` and `Inexact` (R109). -/
theorem passFlags_mem : ∀ inexact incremented tiny : Bool, (incremented = true → inexact = true) →
    passFlags inexact incremented tiny ∈ arithFlagSets := by decide

theorem passFlags_of_not_tiny : ∀ inexact incremented : Bool, passFlags inexact incremented false =
    raiseIf false .tiny ||| (raiseIf inexact .inexact ||| raiseIf incremented .incremented) := by decide

theorem roundUnbounded_inexact_of_incremented (h : (roundUnbounded F m sign N e st).incremented = true) :
    (roundUnbounded F m sign N e st).inexact = true := by
  unfold roundUnbounded at h ⊢
  dsimp only at h ⊢
  split at h
  · rw [if_pos ‹_›]
    exact roundInt_incremented_inexact h
  · rw [if_neg ‹_›]
    exact roundInt_incremented_inexact h

/-- The rounding pass raises the flags of an overflow, or those of a rounding that is tiny or not (R106 to R109). -/
@[simp] theorem raisesListed_roundPack : (roundPack F m tp sign N e st).RaisesListed := by
  have hEu := (roundUnbounded_Eu_bounds (F := F) (m := m) (sign := sign) (N := N) (e := e) (st := st)).1
  unfold Completion.RaisesListed roundPack
  dsimp only
  split_ifs with hE hov
  · rw [isTiny_of_le hE hEu]
    obtain ⟨-, h⟩ | ⟨-, h⟩ := deliverOverflow_cases F m sign
    · rw [h]
      decide
    · rw [h]
      decide
  · rw [isTiny_of_le hE hEu, deliverNormal, ← passFlags_of_not_tiny]
    exact passFlags_mem _ _ _ roundUnbounded_inexact_of_incremented
  · exact passFlags_mem _ _ _ roundInt_incremented_inexact

@[simp] theorem raisesListed_sumResult {s1 s2 : Bool} {M1 e1 M2 e2 : Int} :
    (sumResult F m tp s1 s2 M1 e1 M2 e2).RaisesListed := by
  unfold sumResult
  extract_lets
  split_ifs <;> simp

@[simp] theorem raisesListed_addNumbers : (addNumbers F m tp a b).RaisesListed := by
  unfold addNumbers
  extract_lets
  split_ifs <;> simp

theorem raisesListed_addResult : (addResult F m tp a b).RaisesListed := by
  unfold addResult
  split_ifs <;> simp

theorem raisesListed_subResult : (subResult F m tp a b).RaisesListed := by
  unfold subResult
  split_ifs <;> simp

theorem raisesListed_mulResult : (mulResult F m tp a b).RaisesListed := by
  unfold mulResult
  extract_lets
  split_ifs <;> simp

theorem raisesListed_divResult : (divResult F m tp a b).RaisesListed := by
  unfold divResult
  extract_lets
  split_ifs <;> simp

theorem raisesListed_remResult : (remResult F m tp a b).RaisesListed := by
  unfold remResult
  extract_lets
  split_ifs <;> simp

theorem raisesListed_sqrtResult : (sqrtResult F m tp a).RaisesListed := by
  unfold sqrtResult
  extract_lets
  split_ifs <;> simp

theorem raisesListed_fmaResult : (fmaResult F m tp a b c).RaisesListed := by
  unfold fmaResult
  extract_lets
  split_ifs <;> simp

theorem arith_raisesListed {op : ArithOp} (h : runCmd (.arith op F) s = .next t) :
    ∃ d, t = s.complete d ∧ d.RaisesListed := by
  cases op with
  | add => exact runBinaryRounding_leaves h fun _ _ _ _ _ _ => raisesListed_addResult
  | sub => exact runBinaryRounding_leaves h fun _ _ _ _ _ _ => raisesListed_subResult
  | mul => exact runBinaryRounding_leaves h fun _ _ _ _ _ _ => raisesListed_mulResult
  | div => exact runBinaryRounding_leaves h fun _ _ _ _ _ _ => raisesListed_divResult
  | rem => exact runBinaryRounding_leaves h fun _ _ _ _ _ _ => raisesListed_remResult
  | sqrt => exact runUnaryRounding_leaves h fun _ _ _ _ => raisesListed_sqrtResult
  | fma => exact runTernaryRounding_leaves h fun _ _ _ _ _ _ _ _ => raisesListed_fmaResult

/-! ### Each flag set is raised -/

/-- A command on two `F32` operands and a clear `FLAGS`, and the flags it leaves. -/
structure FlagExample where
  op : ArithOp
  instr : Instr
  rm : BitVec 3
  opa : Word
  opb : Word
  fl : BitVec 7

/-- The state an example runs in: tininess is before rounding. -/
def FlagExample.state (x : FlagExample) : State :=
  { State.reset with rm := x.rm, tp := 0#1, opa := ⟨x.opa, true⟩, opb := ⟨x.opb, true⟩ }

/-- In the order of the ten sets: 1 + 1; inf - inf; 1 / 0; 1 / 3 toward zero and to nearest; twice the smallest subnormal;
half of it toward zero and upward; twice the largest finite value toward zero and to nearest. -/
def flagExamples : List FlagExample :=
  [⟨.add, .addF32, 0#3, 0x3F800000#128, 0x3F800000#128, 0x00#7⟩,
    ⟨.sub, .subF32, 0#3, 0x7F800000#128, 0x7F800000#128, 0x10#7⟩,
    ⟨.div, .divF32, 0#3, 0x3F800000#128, 0x00000000#128, 0x08#7⟩,
    ⟨.div, .divF32, 1#3, 0x3F800000#128, 0x40400000#128, 0x01#7⟩,
    ⟨.div, .divF32, 0#3, 0x3F800000#128, 0x40400000#128, 0x21#7⟩,
    ⟨.add, .addF32, 0#3, 0x00000001#128, 0x00000001#128, 0x40#7⟩,
    ⟨.mul, .mulF32, 1#3, 0x00000001#128, 0x3F000000#128, 0x43#7⟩,
    ⟨.mul, .mulF32, 3#3, 0x00000001#128, 0x3F000000#128, 0x63#7⟩,
    ⟨.add, .addF32, 1#3, 0x7F7FFFFF#128, 0x7F7FFFFF#128, 0x05#7⟩,
    ⟨.add, .addF32, 0#3, 0x7F7FFFFF#128, 0x7F7FFFFF#128, 0x25#7⟩]

/-- The example's command completes with the flags the example lists. -/
def FlagExample.runs (x : FlagExample) : Bool :=
  match exec x.instr x.state with
  | .next t => t.flags == x.fl
  | _ => false

theorem FlagExample.exists_next {x : FlagExample} (h : x.runs = true) :
    ∃ t, exec x.instr x.state = .next t ∧ t.flags = x.fl := by
  unfold FlagExample.runs at h
  split at h
  · exact ⟨_, ‹_›, by simpa using h⟩
  · cases h

theorem flagExamples_run : ∀ x ∈ flagExamples, x.instr.toCmd = .arith x.op .f32 ∧ x.runs = true := by decide

theorem flagExamples_flags : flagExamples.map FlagExample.fl = arithFlagSets := rfl

/-- Settles O46: every completion raises a listed set, and an example raises each. -/
theorem arithmeticFlagSetsAreTen : Obligations.ArithmeticFlagSetsAreTen := by
  refine ⟨fun i s t op F hi h => ?_, fun fl hfl => ?_⟩
  · rw [exec_of_toCmd hi] at h
    obtain ⟨d, rfl, hd⟩ := arith_raisesListed h
    exact ⟨d.fl, hd, rfl⟩
  · obtain ⟨x, hx, rfl⟩ : ∃ x ∈ flagExamples, x.fl = fl := List.mem_map.mp (flagExamples_flags ▸ hfl)
    obtain ⟨hcmd, hrun⟩ := flagExamples_run x hx
    obtain ⟨t, ht, hfl⟩ := FlagExample.exists_next hrun
    exact ⟨x.instr, x.state, t, x.op, .f32, hcmd, rfl, ht, hfl⟩

end Sys2Proof.Machine

/-! PROOFS. Conversions between integers and floats: `I2F` rounds the integer (R150), `F2I` and `F2I_RMM` round the value to an
integer and then test the range (R151, R152, R156), and an integer that fits the precision survives both (R158). -/

namespace Sys2Proof.Machine

variable {F : Fmt} {T : IntType} {m : RMode} {tp : BitVec 1} {s : State} {sign : Bool} {r : Rounded} {w a : Word} {v : Int}

/-! ### Commands that may run -/

theorem runUnary_ready {f : Word → Completion} (ha : OperandOk F s.opa) :
    runUnary F f s = .next (s.complete (f (operandOf F s.opa))) :=
  runUnary_eq_next.mpr ⟨ha.1, ha.2, rfl⟩

theorem runIntRounding_ready {f : RMode → BitVec 1 → Int → Completion} (hm : RMode.ofBits s.rm = some m)
    (hw : s.opa.written = true) :
    runIntRounding T f s = .next (s.complete (f m s.tp (intValue T s.opa.val))) :=
  runIntRounding_eq_next.mpr ⟨m, hm, hw, rfl⟩

/-- Both float to integer conversions are `F2I_core`, in the mode of `RM` or truncating (R151, R152). -/
theorem exec_f2i {i : Instr}
    (hi : i.toCmd = .f2i F T ∧ RMode.ofBits s.rm = some m ∨ i.toCmd = .f2iRmm F T ∧ m = .minmag)
    (ha : OperandOk F s.opa) (hop : operandOf F s.opa = a) : exec i s = .next (s.complete (f2iCore F T m a)) := by
  subst hop
  obtain ⟨hi, hm⟩ | ⟨hi, rfl⟩ := hi
  · exact (exec_of_toCmd hi s).trans (runUnaryRounding_ready hm ha)
  · exact (exec_of_toCmd hi s).trans (runUnary_ready ha)

theorem lowBits_of_lt {k : Nat} (h : w.toNat < 2 ^ k) : lowBits k w = w := by
  rw [lowBits, Nat.mod_eq_of_lt h, BitVec.ofNat_toNat, BitVec.setWidth_eq]

/-- A float result can be taken as an operand, unchanged (R64, R65). -/
theorem IsPattern.operand (h : IsPattern F w) : OperandOk F ⟨w, true⟩ ∧ operandOf F ⟨w, true⟩ = w := by
  have hw : operandOf F ⟨w, true⟩ = w := lowBits_of_lt h.1
  exact ⟨⟨rfl, hw.symm ▸ h.2⟩, hw⟩

/-! ### The integer a register holds -/

theorem testBit_top_iff {u k : Nat} (h : u < 2 ^ (k + 1)) : u.testBit k = true ↔ 2 ^ k ≤ u :=
  ⟨Nat.ge_two_pow_of_testBit, fun hle => Nat.testBit_of_two_pow_le_and_two_pow_add_one_gt hle h⟩

/-- Two's complement by comparison with half the range (R149, R150). -/
theorem intValue_eq (T : IntType) (w : Word) :
    intValue T w = if (T = .i32 ∨ T = .i64) ∧ 2 ^ (T.n - 1) ≤ w.toNat % 2 ^ T.n
      then ((w.toNat % 2 ^ T.n : Nat) : Int) - 2 ^ T.n else (w.toNat % 2 ^ T.n : Nat) := by
  have hlt : w.toNat % 2 ^ T.n < 2 ^ (T.n - 1 + 1) := by
    rw [Nat.sub_add_cancel T.n_pos]
    exact Nat.mod_lt _ (Nat.two_pow_pos _)
  have hsigned : T.signed = true ↔ T = .i32 ∨ T = .i64 := by cases T <;> decide
  simp only [intValue, Bool.and_eq_true, hsigned, testBit_top_iff hlt]

/-- The integer is one of its type's (R149). -/
theorem intValue_mem (T : IntType) (w : Word) : T.lo ≤ intValue T w ∧ intValue T w ≤ T.hi := by
  have hlt : w.toNat % 2 ^ T.n < 2 ^ T.n := Nat.mod_lt _ (Nat.two_pow_pos _)
  rw [intValue_eq]
  generalize w.toNat % 2 ^ T.n = u at hlt ⊢
  cases T
  case i32 | i64 =>
    simp only [IntType.lo, IntType.hi, IntType.signed, IntType.n, reduceCtorEq, or_false, or_true, true_and,
      if_true] at hlt ⊢
    split <;> omega
  case u32 | u64 =>
    simp only [IntType.lo, IntType.hi, IntType.signed, IntType.n, reduceCtorEq, or_self, false_and,
      Bool.false_eq_true, if_false] at hlt ⊢
    omega

/-- The low bits of the register are the integer's own pattern (R7, R65). -/
theorem intPattern_intValue (T : IntType) (w : Word) : (intPattern T (intValue T w)).toNat = w.toNat % 2 ^ T.n := by
  have hlt : w.toNat % 2 ^ T.n < 2 ^ T.n := Nat.mod_lt _ (Nat.two_pow_pos _)
  have hmod : intValue T w % 2 ^ T.n = (w.toNat % 2 ^ T.n : Nat) := by
    have hu : ((w.toNat % 2 ^ T.n : Nat) : Int) % 2 ^ T.n = (w.toNat % 2 ^ T.n : Nat) :=
      Int.emod_eq_of_lt (by positivity) (by exact_mod_cast hlt)
    rw [intValue_eq]
    split
    · rw [Int.sub_emod_right, hu]
    · exact hu
  rw [intPattern, hmod, Int.toNat_natCast, toNat_ofNat_of_lt T.n_le hlt]

/-! ### Integer to float -/

/-- An integer is its own exact intermediate (R150). -/
theorem abs_intCast (v : Int) : |(v : ℝ)| = v.natAbs * 2 ^ (0 : Int) := by
  rw [zpow_zero, mul_one, Nat.cast_natAbs, Int.cast_abs]

/-- A nonzero integer is rounded as the number it is, and no record is kept (R113, R150). -/
theorem i2fResult_rounds (hv : v ≠ 0) :
    i2fResult F m tp v = { refRoundPack F m tp (decide (v < 0)) |(v : ℝ)| with record := .invalidate } := by
  rw [i2fResult, if_neg hv, roundPack_exact (Int.natAbs_pos.mpr hv) (abs_intCast v)]

theorem i2fResult_zero : i2fResult F m tp 0 = ⟨zeroOf F false, 0#7, .invalidate⟩ := rfl

/-- Settles O47: the integer is exact before the one rounding pass, whose record is dropped. -/
theorem intToFloatRoundsTheInteger : Obligations.IntToFloatRoundsTheInteger := by
  intro i s T F m hi hm hw u v
  have hv : intValue T s.opa.val = v := intValue_eq T s.opa.val
  have hrun : exec i s = .next (s.complete (i2fResult F m s.tp v)) := by
    rw [exec_of_toCmd hi, ← hv]
    exact runIntRounding_ready hm hw
  exact ⟨fun hne => by rw [hrun, i2fResult_rounds hne], fun h0 => by rw [hrun, h0, i2fResult_zero]⟩

/-! ### Float to integer -/

/-- What a conversion delivers of a sign and a magnitude rounded to an integer: the range test of R151. -/
def intDelivered (T : IntType) (sign : Bool) (r : Rounded) : Completion :=
  let v : Int := if sign then -(r.q : Int) else r.q
  if v < T.lo then f2iInvalid T .negOverflow
  else if T.hi < v then f2iInvalid T .posOverflow
  else ⟨intPattern T v, raiseIf r.inexact .inexact, .invalidate⟩

theorem intDelivered_of_mem (hv : (if sign then -(r.q : Int) else r.q) = v) (hlo : T.lo ≤ v) (hhi : v ≤ T.hi) :
    intDelivered T sign r = ⟨intPattern T v, raiseIf r.inexact .inexact, .invalidate⟩ := by
  simp only [intDelivered, hv, if_neg (not_lt.mpr hlo), if_neg (not_lt.mpr hhi)]

theorem intDelivered_of_lt (hlo : (if sign then -(r.q : Int) else r.q) < T.lo) :
    intDelivered T sign r = f2iInvalid T .negOverflow := if_pos hlo

theorem intDelivered_of_gt (hhi : T.hi < (if sign then -(r.q : Int) else r.q)) :
    intDelivered T sign r = f2iInvalid T .posOverflow := by
  have hlohi : T.lo ≤ T.hi := by cases T <;> decide
  simp only [intDelivered, if_neg (not_lt.mpr (hlohi.trans hhi.le)), if_pos hhi]

/-- The finite part of `F2I_core`, by its rounding (R151). -/
theorem f2iFinite_eq (T : IntType) (m : RMode) (sign : Bool) (N : Nat) (e : Int) :
    f2iFinite T m sign N e = intDelivered T sign (roundInt m sign (cutAt N (-e) false)) := rfl

theorem zero_mem_range (T : IntType) : T.lo ≤ 0 ∧ 0 ≤ T.hi := by cases T <;> decide

/-- A finite or zero operand is rounded to an integer as the real number it is (R101, R151). -/
theorem f2iCore_number (h : isFin F a = true ∨ isZero F a = true) :
    f2iCore F T m a = intDelivered T (signOf F a) (refRound m (signOf F a) |valueOf F a|) := by
  obtain hfin | hzero := h
  · have hstands : StandsFor F (intSigOf F a) (intExpOf F a) false |valueOf F a| :=
      ⟨intSigOf_pos_of_isFin hfin, abs_valueOf F a⟩
    have hround := hstands.roundInt_cutAt (m := m) (sign := signOf F a) nofun (add_neg_cancel (intExpOf F a))
    rw [zpow_zero, div_one] at hround
    simp [f2iCore, isNaN_of_isFin hfin, isInf_of_isFin hfin, isZero_of_isFin hfin, f2iFinite_eq, hround]
  · have hround : refRound m (signOf F a) |valueOf F a| = ⟨0, false, false⟩ := by
      rw [valueOf_of_isZero hzero, abs_zero, ← Nat.cast_zero, refRound_natCast]
    obtain ⟨hlo, hhi⟩ := zero_mem_range T
    rw [hround, intDelivered_of_mem (v := 0) (by simp) hlo hhi]
    simp [f2iCore, isNaN_of_isZero hzero, isInf_of_isZero hzero, hzero, special, intPattern, raiseIf]

theorem isNaN_of_isInf (h : isInf F a = true) : isNaN F a = false := by
  have hc : classOf F a = .inf := by simpa [isInf] using h
  simp [isNaN, hc]

/-- The open integer in its type's low bits, with `Invalid` alone (R156). -/
theorem f2iInvalid_eq (T : IntType) (kind : InvalidKind) :
    f2iInvalid T kind = ⟨BitVec.ofNat 128 ((Config.intInvalid T kind).toNat % 2 ^ T.n), 0x10#7, .invalidate⟩ := by
  have hmod : (Config.intInvalid T kind).toNat % 2 ^ 128 = (Config.intInvalid T kind).toNat :=
    Nat.mod_eq_of_lt ((Config.intInvalid T kind).isLt.trans (by decide))
  rw [f2iInvalid, intInvalidPattern, lowBits, BitVec.toNat_setWidth, hmod]
  rfl

/-- Settles O48: the tests of `F2I_core` in their order, and last the range test. -/
theorem floatToIntRoundsThenTestsTheRange : Obligations.FloatToIntRoundsThenTestsTheRange := by
  intro i s F T m hi ha a gives invalid r v
  have hrun : exec i s = .next (s.complete (f2iCore F T m a)) := exec_f2i hi ha rfl
  simp only [invalid, gives, hrun, ← f2iInvalid_eq]
  refine ⟨fun hnan => ?_, fun hinf hs => ?_, fun hinf hs => ?_, fun hnum => ?_⟩
  · simp [f2iCore, hnan]
  · simp [f2iCore, isNaN_of_isInf hinf, hinf, hs]
  · simp [f2iCore, isNaN_of_isInf hinf, hinf, hs]
  · rw [f2iCore_number hnum]
    refine ⟨fun hlo => ?_, fun hhi => ?_, fun hlo hhi => ?_⟩
    · rw [intDelivered_of_lt hlo]
    · rw [intDelivered_of_gt hhi]
    · rw [intDelivered_of_mem rfl hlo hhi]
      rfl

/-! ### The round trip -/

/-- The sign and the magnitude are the value (R84). -/
theorem valueOf_eq_placed_abs (F : Fmt) (y : Word) : valueOf F y = placed (signOf F y) 0 |valueOf F y| := by
  rw [abs_valueOf, valueOf, placed, zpow_zero, mul_one, mul_assoc]

/-- A float whose value is an integer of the type converts to it, with no flag in any mode (R151). -/
theorem f2iCore_integer (h : isFin F a = true ∨ isZero F a = true) (hv : valueOf F a = v) (hlo : T.lo ≤ v)
    (hhi : v ≤ T.hi) : f2iCore F T m a = ⟨intPattern T v, 0#7, .invalidate⟩ := by
  have habs : |valueOf F a| = v.natAbs := by rw [hv, Nat.cast_natAbs, Int.cast_abs]
  have hsign : (if signOf F a then -(v.natAbs : Int) else v.natAbs) = v := by
    have h := signed_mul_eq_placed (signOf F a) v.natAbs 0
    rw [← habs, ← valueOf_eq_placed_abs, hv, zpow_zero, mul_one] at h
    exact_mod_cast h
  rw [f2iCore_number h, habs, refRound_natCast, intDelivered_of_mem hsign hlo hhi]
  rfl

/-- An integer of at most `p` bits is converted exactly, with no flag (R158). -/
theorem i2fResult_exact (h : bitlen v.natAbs ≤ F.p) :
    (isFin F (i2fResult F m tp v).res = true ∨ isZero F (i2fResult F m tp v).res = true) ∧
      valueOf F (i2fResult F m tp v).res = v ∧ (i2fResult F m tp v).fl = 0#7 := by
  by_cases hv : v = 0
  · rw [hv, i2fResult_zero, Int.cast_zero]
    exact ⟨.inr (isZero_zeroOf F _), valueOf_of_isZero (isZero_zeroOf F _), rfl⟩
  · have hpos := Int.natAbs_pos.mpr hv
    have hlt : v.natAbs < 2 ^ F.p := (lt_two_pow_bitlen _).trans_le (Nat.pow_le_pow_right (by decide) h)
    obtain ⟨hlo, hhi, hmin⟩ : F.emin - F.p + 1 ≤ 0 ∧ 0 ≤ F.emax - F.p + 1 ∧ F.emin ≤ 0 := by cases F <;> decide
    obtain ⟨hnumber, hvalue, hfl⟩ := refRoundPack_representable (m := m) (sg := decide (v < 0)) (tp := tp) hpos hlt
      hlo hhi (abs_intCast v)
    have hnormal : ¬|(v : ℝ)| < 2 ^ F.emin := by
      rw [not_lt]
      calc (2 : ℝ) ^ F.emin ≤ 1 := zpow_le_one_of_nonpos₀ one_le_two hmin
        _ ≤ |(v : ℝ)| := by exact_mod_cast Int.one_le_abs hv
    rw [i2fResult_rounds hv]
    refine ⟨hnumber, hvalue.trans ?_, hfl.trans (if_neg hnormal)⟩
    simpa [placed] using placed_signed false 0 v

/-- Settles O53: the float has the integer's value, so either conversion back rounds nothing. -/
theorem integerRoundTripIsTheIdentity : Obligations.IntegerRoundTripIsTheIdentity := by
  intro i j s t T F rm hi hj hbits hrun hrm
  rw [exec_of_toCmd hi] at hrun
  obtain ⟨m, -, -, rfl⟩ := runIntRounding_eq_next.mp hrun
  obtain ⟨hnumber, hvalue, hfl⟩ := i2fResult_exact (m := m) (tp := s.tp) hbits
  obtain ⟨m', hm'⟩ : ∃ m', j.toCmd = .f2i F T ∧ RMode.ofBits rm = some m' ∨ j.toCmd = .f2iRmm F T ∧ m' = .minmag := by
    obtain hj | hj := hj
    · obtain ⟨m', hm'⟩ := ofBits_of_lt hrm
      exact ⟨m', .inl ⟨hj, hm'⟩⟩
    · exact ⟨.minmag, .inr ⟨hj, rfl⟩⟩
  obtain ⟨hok, hop⟩ := (sound_i2fResult (F := F) (m := m) (tp := s.tp) (v := intValue T s.opa.val)).1.operand
  obtain ⟨hlo, hhi⟩ := intValue_mem T s.opa.val
  have hflags : (s.complete (i2fResult F m s.tp (intValue T s.opa.val))).flags = s.flags := by
    rw [State.complete_flags, hfl, BitVec.or_zero]
  refine ⟨hflags, _, exec_f2i hm' hok hop, ?_, ?_⟩
  · rw [State.complete_res, f2iCore_integer hnumber hvalue hlo hhi, intPattern_intValue]
  · rw [State.complete_flags, f2iCore_integer hnumber hvalue hlo hhi, BitVec.or_zero]
    exact hflags

end Sys2Proof.Machine

/-! PROOFS. Conversions between float formats: widening is exact (R153), narrowing rounds once (R154), a NaN keeps its sign and
payload (R155), and widening then narrowing is the identity (R157). -/

namespace Sys2Proof.Machine

variable {F G : Fmt} {m m' : RMode} {tp tp' : BitVec 1} {s t : State} {sign : Bool} {N : Nat} {e : Int} {x y a w : Word}

/-! ### The conversion of a format to another -/

/-- `F2F`, widening or narrowing (R153, R154). -/
def convertResult (F G : Fmt) : RMode → BitVec 1 → Word → Completion :=
  if F.p < G.p then widenResult F G else narrowResult F G

theorem runCmd_f2f (F G : Fmt) : runCmd (.f2f F G) = runUnaryRounding F (convertResult F G) := by
  rw [convertResult, apply_ite (runUnaryRounding F)]
  rfl

theorem exec_f2f {i : Instr} (hi : i.toCmd = .f2f F G) (hm : RMode.ofBits s.rm = some m) (ha : OperandOk F s.opa)
    (hop : operandOf F s.opa = a) : exec i s = .next (s.complete (convertResult F G m s.tp a)) := by
  subst hop
  rw [exec_of_toCmd hi, runCmd_f2f]
  exact runUnaryRounding_ready hm ha

/-- A conversion that is no misuse has its mode and its operand (R209). -/
theorem CommandOk.f2f (h : CommandOk (.f2f F G) s) : ∃ m, RMode.ofBits s.rm = some m ∧ OperandOk F s.opa := by
  obtain ⟨hrm, ⟨ha, -⟩, -⟩ := h
  obtain ⟨m, hm⟩ := ofBits_of_lt (hrm rfl)
  exact ⟨m, hm, ha⟩

theorem OperandOk.isPattern {r : MarkedReg} (h : OperandOk F r) : IsPattern F (operandOf F r) := isPattern_lowBits h.2

theorem isPattern_convertResult (ha : IsPattern F a) : IsPattern G (convertResult F G m tp a).res := by
  unfold convertResult
  split
  · exact (sound_widenResult ‹_› ha).1
  · exact (sound_narrowResult ha).1

theorem convertResult_of_isNaN (h : isNaN F a = true) : convertResult F G m tp a = nanConvert F G a := by
  unfold convertResult
  split <;> simp [widenResult, narrowResult, h]

theorem convertResult_of_isInf (h : isInf F a = true) :
    convertResult F G m tp a = special (infOf G (signOf F a)) := by
  unfold convertResult
  split <;> simp [widenResult, narrowResult, isNaN_of_isInf h, h]

theorem convertResult_of_isZero (h : isZero F a = true) :
    convertResult F G m tp a = special (zeroOf G (signOf F a)) := by
  unfold convertResult
  split <;> simp [widenResult, narrowResult, isNaN_of_isZero h, isInf_of_isZero h, h]

theorem convertResult_of_isFin (h : isFin F a = true) : convertResult F G m tp a =
    if F.p < G.p then special (widenPattern G (signOf F a) (intSigOf F a) (intExpOf F a))
    else roundPack G m tp (signOf F a) (intSigOf F a) (intExpOf F a) false := by
  unfold convertResult
  split <;> simp [widenResult, narrowResult, isNaN_of_isFin h, isInf_of_isFin h, isZero_of_isFin h, *]

/-- A canonical pattern that is no NaN is finite and nonzero, a zero or an infinity (R86). -/
theorem number_classes (hc : classOf F a ≠ .nonCanonical) (hnan : isNaN F a = false) :
    isFin F a = true ∨ isZero F a = true ∨ isInf F a = true := by
  simp only [isNaN, isFin, isZero, isInf] at *
  cases h : classOf F a <;> simp_all

/-! ### Finite operands -/

/-- Settles O50: the operand's own significand and exponent are the exact intermediate of the one rounding pass. -/
theorem narrowingRoundsOnce : Obligations.NarrowingRoundsOnce := by
  intro i s F G m hi hp hm ha a
  have hrun : exec i s = .next (s.complete (convertResult F G m s.tp a)) := exec_f2f hi hm ha rfl
  refine ⟨fun hfin => ?_, fun hinf => ?_, fun hzero => ?_⟩
  · rw [hrun, convertResult_of_isFin hfin, if_neg hp.le.not_gt,
      roundPack_exact (intSigOf_pos_of_isFin hfin) (abs_valueOf F a)]
  · rw [hrun, convertResult_of_isInf hinf, special_eq]
  · rw [hrun, convertResult_of_isZero hzero, special_eq]

/-- More precision comes with no smaller a range of exponents (R80). -/
theorem emin_emax_of_wider (hp : F.p < G.p) : G.emin ≤ F.emin ∧ F.emax ≤ G.emax := by
  revert hp
  cases F <;> cases G <;> decide

/-- The exact repack is what the rounding pass delivers, in any mode, of a number that fits the wider format (R107, R108,
R153). -/
theorem roundPack_res_eq_widenPattern (hN : N < 2 ^ G.p) (hlo : G.emin - G.p + 1 ≤ e)
    (hhi : unroundedExp N e ≤ G.emax) : (roundPack G m tp sign N e false).res = widenPattern G sign N e := by
  have hu := roundUnbounded_exact (m := m) (sign := sign) (e := e) hN
  by_cases hE : G.emin ≤ unroundedExp N e
  · simp only [roundPack, widenPattern, hu, if_pos hE, if_neg (not_lt.mpr hE), if_neg (not_lt.mpr hhi), deliverNormal]
  · have hround := roundInt_cutAt_exact (N := N) m sign (sh := G.emin - G.p + 1 - e) (by omega)
    have hp := G.p_eq
    have hlt : N * 2 ^ (-(G.emin - G.p + 1 - e)).toNat < 2 ^ (G.p - 1) := by
      calc N * 2 ^ (-(G.emin - G.p + 1 - e)).toNat < 2 ^ bitlen N * 2 ^ (-(G.emin - G.p + 1 - e)).toNat :=
            Nat.mul_lt_mul_of_pos_right (lt_two_pow_bitlen N) (Nat.two_pow_pos _)
        _ ≤ 2 ^ (G.p - 1) := by
            rw [← pow_add]
            refine Nat.pow_le_pow_right (by decide) ?_
            unfold unroundedExp at hE
            omega
    simp only [roundPack, widenPattern, hu, if_neg hE, if_pos (not_le.mp hE), deliverSubnormal, hround, if_neg hlt.ne]
    rw [neg_sub]

/-- A finite operand has the same value in the wider format (R153). -/
theorem widenPattern_value (hp : F.p < G.p) (ha : isFin F a = true) :
    isFin G (widenPattern G (signOf F a) (intSigOf F a) (intExpOf F a)) = true ∧
      valueOf G (widenPattern G (signOf F a) (intSigOf F a) (intExpOf F a)) = valueOf F a := by
  have hpos := intSigOf_pos_of_isFin ha
  have hN := intSigOf_lt F a
  have hlo := le_intExpOf F a
  have hhi := intExpOf_le ha
  have hE := unroundedExp_lt (e := intExpOf F a) hN
  obtain ⟨hmin, hmax⟩ := emin_emax_of_wider hp
  rw [← roundPack_res_eq_widenPattern (m := .ne) (tp := 0#1) (hN.trans (Nat.pow_lt_pow_right (by decide) hp)) (by omega)
    (by omega), roundPack_exact hpos (abs_valueOf F a)]
  have hshift : |valueOf F a| = (intSigOf F a * 2 ^ (G.p - F.p) : Nat) * 2 ^ (intExpOf F a - (G.p - F.p : Nat)) := by
    rw [abs_valueOf, zpow_sub₀ two_ne_zero, zpow_natCast, Nat.cast_mul, Nat.cast_pow, Nat.cast_ofNat]
    field_simp
  have hlt : intSigOf F a * 2 ^ (G.p - F.p) < 2 ^ G.p := by
    calc intSigOf F a * 2 ^ (G.p - F.p) < 2 ^ F.p * 2 ^ (G.p - F.p) :=
          Nat.mul_lt_mul_of_pos_right hN (Nat.two_pow_pos _)
      _ = 2 ^ G.p := by rw [← pow_add, Nat.add_sub_cancel' hp.le]
  obtain ⟨hnumber, hvalue, -⟩ := refRoundPack_representable (m := .ne) (tp := 0#1) (sg := signOf F a)
    (Nat.mul_pos hpos (Nat.two_pow_pos _)) hlt (by omega) (by omega) hshift
  have hsame : valueOf G (refRoundPack G .ne 0#1 (signOf F a) |valueOf F a|).res = valueOf F a := by
    rw [hvalue, valueOf_eq_placed_abs F a, hshift]
    simp [placed]
  refine ⟨hnumber.resolve_right fun hzero => ?_, hsame⟩
  rw [valueOf_of_isZero hzero, valueOf_eq_placed] at hsame
  exact placed_ne_zero (intSigOf_cast_pos ha) hsame.symm

/-- Settles O49, class by class. -/
theorem wideningIsExact : Obligations.WideningIsExact := by
  intro i s F G hi hp hok a hnan
  obtain ⟨m, hm, ha⟩ := (hi ▸ hok).f2f
  have hrun : exec i s = .next (s.complete (convertResult F G m s.tp a)) := exec_f2f hi hm ha rfl
  obtain hfin | hzero | hinf := number_classes (a := a) ha.2 hnan
  · rw [convertResult_of_isFin hfin, if_pos hp] at hrun
    exact ⟨_, hrun, BitVec.or_zero, rfl, fun hinf => by simp [isInf_of_isFin hfin] at hinf,
      fun hzero => by simp [isZero_of_isFin hfin] at hzero, fun _ => widenPattern_value hp hfin⟩
  · rw [convertResult_of_isZero hzero] at hrun
    exact ⟨_, hrun, BitVec.or_zero, rfl, fun hinf => by simp [isInf_of_isZero hzero] at hinf, fun _ => rfl,
      fun hfin => by simp [isZero_of_isFin hfin] at hzero⟩
  · rw [convertResult_of_isInf hinf] at hrun
    exact ⟨_, hrun, BitVec.or_zero, rfl, fun _ => rfl, fun hzero => by simp [isInf_of_isZero hzero] at hinf,
      fun hfin => by simp [isInf_of_isFin hfin] at hinf⟩

/-! ### NaNs -/

theorem fracOf_nanConvert (F G : Fmt) (a : Word) : fracOf G (nanConvert F G a).res = nanPayload F G a := by
  have hpay := nanPayload_lt F G a
  have hlead : ((if G.explicitLead then 2 ^ 63 else 0) + nanPayload F G a) % 2 ^ G.t = nanPayload F G a % 2 ^ G.t := by
    cases G <;> simp [Fmt.explicitLead, Fmt.t]
  rw [nanConvert, fracOf_pack, hlead, Nat.mod_eq_of_lt hpay]

theorem bexpOf_nanConvert (F G : Fmt) (a : Word) : bexpOf G (nanConvert F G a).res = G.expMax := by
  rw [nanConvert, bexpOf_pack]
  cases G <;> rfl

theorem signOf_nanConvert (F G : Fmt) (a : Word) : signOf G (nanConvert F G a).res = signOf F a := signOf_pack _ _ _ _

/-- Left-aligned means scaled by the ratio of the fraction widths (R155). -/
theorem nanPayload_eq (F G : Fmt) (a : Word) :
    nanPayload F G a = (fracOf F a * 2 ^ G.t / 2 ^ F.t) ||| 2 ^ (G.t - 1) := by
  unfold nanPayload
  split
  · rename_i hle
    rw [← Nat.sub_add_cancel hle, pow_add, ← mul_assoc, Nat.mul_div_cancel _ (Nat.two_pow_pos _), Nat.add_sub_cancel]
  · rename_i hlt
    have hle : G.t ≤ F.t := (not_le.mp hlt).le
    rw [← Nat.sub_add_cancel hle, pow_add, Nat.mul_div_mul_right _ _ (Nat.two_pow_pos _), Nat.add_sub_cancel]

/-- The quiet bit is set after the shift (R155). -/
theorem classOf_nanConvert (F G : Fmt) (a : Word) : classOf G (nanConvert F G a).res = .qnan := by
  have hbexp := bexpOf_nanConvert F G a
  refine classOf_eq_qnan ⟨hbexp, fun hG => ?_⟩ ?_
  · subst hG
    refine (classOf_ne_nonCanonical_iff.mp (sound_nanConvert (F := F) (G := .x80) (a := a)).1.2 rfl).mpr ?_
    rw [hbexp]
    decide
  · rw [fracOf_nanConvert, nanPayload, Nat.testBit_or, Nat.testBit_two_pow_self, Bool.or_true]

theorem nanConvert_fl (F G : Fmt) (a : Word) :
    (nanConvert F G a).fl = if isSNaN F a then 0x10#7 else 0#7 := rfl

/-- Settles O51: the fields of the packed NaN. -/
theorem nanConversionKeepsSignAndPayload : Obligations.NanConversionKeepsSignAndPayload := by
  intro i s F G hi hok a hnan
  obtain ⟨m, hm, ha⟩ := (hi ▸ hok).f2f
  have hrun : exec i s = .next (s.complete (convertResult F G m s.tp a)) := exec_f2f hi hm ha rfl
  rw [convertResult_of_isNaN hnan] at hrun
  exact ⟨_, hrun, classOf_nanConvert F G a, signOf_nanConvert F G a, sound_nanConvert.1.1,
    (fracOf_nanConvert F G a).trans (nanPayload_eq F G a), rfl, rfl⟩

/-! ### Widening and narrowing -/

/-- A pattern is known by its sign, exponent field and fraction (R81, R82). -/
theorem IsPattern.ext_fields (hx : IsPattern F x) (hy : IsPattern F y) (hsign : signOf F x = signOf F y)
    (hbexp : bexpOf F x = bexpOf F y) (hfrac : fracOf F x = fracOf F y) : x = y := by
  rw [← pack_fields hx.1, ← pack_fields hy.1, sigOf_eq_frac hx.2, sigOf_eq_frac hy.2, hsign, hbexp, hfrac]

theorem bexpOf_of_isInf (h : isInf F x = true) : bexpOf F x = F.expMax ∧ fracOf F x = 0 := by
  have hclass : classOf F x = .inf := by simpa [isInf] using h
  cases F
  case x80 =>
    simp only [classOf, Fmt.explicitLead, if_true, classX80] at hclass
    split_ifs at hclass
    exact ⟨‹_›, ‹_›⟩
  all_goals
    simp only [classOf, Fmt.explicitLead, Bool.false_eq_true, if_false, classHidden] at hclass
    split_ifs at hclass
    exact ⟨‹_›, ‹_›⟩

theorem signOf_infOf (F : Fmt) (s : Bool) : signOf F (infOf F s) = s := signOf_pack _ _ _ _

theorem signOf_zeroOf (F : Fmt) (s : Bool) : signOf F (zeroOf F s) = s := signOf_pack _ _ _ _

/-- An infinity is the one of its sign (R83, R87). -/
theorem infOf_signOf (hx : IsPattern F x) (h : isInf F x = true) : infOf F (signOf F x) = x := by
  obtain ⟨hbexp, hfrac⟩ := bexpOf_of_isInf h
  obtain ⟨hbexp', hfrac'⟩ := bexpOf_of_isInf (isInf_infOf F (signOf F x))
  exact (isPattern_infOf F _).ext_fields hx (signOf_infOf F _) (hbexp'.trans hbexp.symm) (hfrac'.trans hfrac.symm)

theorem bexpOf_of_isZero (h : isZero F x = true) : bexpOf F x = 0 ∧ fracOf F x = 0 := by
  have hc := classOf_of_isZero h
  exact (finite_classes (by simp [hc])).2.2.mp hc

/-- A zero is the one of its sign (R83, R87). -/
theorem zeroOf_signOf (hx : IsPattern F x) (h : isZero F x = true) : zeroOf F (signOf F x) = x := by
  obtain ⟨hbexp, hfrac⟩ := bexpOf_of_isZero h
  obtain ⟨hbexp', hfrac'⟩ := bexpOf_of_isZero (isZero_zeroOf F (signOf F x))
  exact (isPattern_zeroOf F _).ext_fields hx (signOf_zeroOf F _) (hbexp'.trans hbexp.symm) (hfrac'.trans hfrac.symm)

/-- Finite values that are equal have one sign. -/
theorem signOf_eq_of_valueOf_eq (hx : isFin F x = true) (hy : isFin G y = true) (h : valueOf F x = valueOf G y) :
    signOf F x = signOf G y := by
  rw [Bool.eq_iff_iff, ← placed_neg_iff (g := intExpOf F x) (intSigOf_cast_pos hx), ← valueOf_eq_placed, h,
    valueOf_eq_placed, placed_neg_iff (intSigOf_cast_pos hy)]

/-- A number widened and narrowed again is the same pattern, in any two modes (R157). -/
theorem convert_back_number (hp : F.p < G.p) (ha : IsPattern F a) (hnan : isNaN F a = false)
    (hw : (convertResult F G m tp a).res = w) :
    (convertResult F G m tp a).fl = 0#7 ∧ (convertResult G F m' tp' w).res = a ∧
      (convertResult G F m' tp' w).fl = if classOf F a = .subnormal then 0x40#7 else 0#7 := by
  obtain hfin | hzero | hinf := number_classes ha.2 hnan
  · rw [convertResult_of_isFin hfin, if_pos hp] at hw ⊢
    obtain ⟨hwfin, hvalue⟩ := widenPattern_value hp hfin
    rw [show widenPattern G _ _ _ = w from hw] at hwfin hvalue
    rw [convertResult_of_isFin hwfin, if_neg hp.le.not_gt, signOf_eq_of_valueOf_eq hwfin hfin hvalue]
    exact ⟨rfl, roundingIsIdempotent F m' tp' a _ _ ha.1 hfin (intSigOf_pos_of_isFin hwfin)
      ((abs_valueOf G w).symm.trans (congrArg _ hvalue))⟩
  · rw [convertResult_of_isZero hzero] at hw ⊢
    obtain rfl : zeroOf G (signOf F a) = w := hw
    rw [convertResult_of_isZero (isZero_zeroOf G _), signOf_zeroOf, zeroOf_signOf ha hzero, classOf_of_isZero hzero]
    exact ⟨rfl, rfl, rfl⟩
  · have hc : classOf F a = .inf := by simpa [isInf] using hinf
    rw [convertResult_of_isInf hinf] at hw ⊢
    obtain rfl : infOf G (signOf F a) = w := hw
    rw [convertResult_of_isInf (isInf_infOf G _), signOf_infOf, infOf_signOf ha hinf, hc]
    exact ⟨rfl, rfl, rfl⟩

theorem fracOf_quiet (F : Fmt) (x : Word) : fracOf F (quiet F x) = fracOf F x ||| 2 ^ (F.t - 1) := by
  have hlt : 2 ^ (F.t - 1) < 2 ^ F.t := Nat.pow_lt_pow_right (by decide) (by cases F <;> decide)
  rw [fracOf, toNat_quiet, Nat.or_mod_two_pow, Nat.mod_eq_of_lt hlt, fracOf]

/-- A payload shifted up and down again is the payload, with the quiet bit set (R155, R157). -/
theorem payload_back (ht : F.t ≤ G.t) (n : Nat) :
    ((n * 2 ^ (G.t - F.t) ||| 2 ^ (G.t - 1)) / 2 ^ (G.t - F.t)) ||| 2 ^ (F.t - 1) = n ||| 2 ^ (F.t - 1) := by
  have ht0 : 0 < F.t := by cases F <;> decide
  have hbit : 2 ^ (G.t - 1) / 2 ^ (G.t - F.t) = 2 ^ (F.t - 1) := by
    rw [Nat.pow_div (by omega) (by decide)]
    congr 1
    omega
  rw [← Nat.shiftRight_eq_div_pow, Nat.shiftRight_or_distrib, Nat.shiftRight_eq_div_pow, Nat.shiftRight_eq_div_pow,
    Nat.mul_div_cancel _ (Nat.two_pow_pos _), hbit, Nat.or_assoc, Nat.or_self]

/-- A NaN widened and narrowed again is the quieted NaN (R157). -/
theorem nanConvert_back (hp : F.p < G.p) (ha : IsPattern F a) (hnan : isNaN F a = true) :
    (nanConvert G F (nanConvert F G a).res).res = quiet F a := by
  have ht : F.t < G.t := by rw [F.p_eq, G.p_eq] at hp; omega
  refine (sound_nanConvert (F := G) (G := F)).1.ext_fields (isPattern_quiet ha) ?_ ?_ ?_
  · rw [signOf_nanConvert, signOf_nanConvert, signOf_quiet]
  · rw [bexpOf_nanConvert, bexpOf_quiet, (hasMaxExponent_of_isNaN hnan).1]
  · rw [fracOf_nanConvert, nanPayload, if_neg ht.not_ge, fracOf_nanConvert, nanPayload, if_pos ht.le,
      payload_back ht.le, fracOf_quiet]

/-- Settles O52: a number by its class, a NaN by its fields. -/
theorem wideningThenNarrowingIsTheIdentity : Obligations.WideningThenNarrowingIsTheIdentity := by
  intro i j s t F G rm hi hj hp hrun hrm a
  rw [exec_of_toCmd hi, runCmd_f2f] at hrun
  obtain ⟨m, -, hrun⟩ := runUnaryRounding_eq_next.mp hrun
  obtain ⟨-, hcanon, rfl⟩ := runUnary_eq_next.mp hrun
  have ha : IsPattern F a := isPattern_lowBits hcanon
  obtain ⟨m', hm'⟩ := ofBits_of_lt hrm
  obtain ⟨hok, hop⟩ := (isPattern_convertResult (G := G) (m := m) (tp := s.tp) ha).operand
  refine ⟨_, exec_f2f hj hm' hok hop, fun hnan => ?_, fun hnan => ?_⟩
  · obtain ⟨hfl, hres, hfl'⟩ := convert_back_number (m := m) (tp := s.tp) (m' := m') (tp' := s.tp) hp ha hnan rfl
    have hflags : (s.complete (convertResult F G m s.tp a)).flags = s.flags := by
      rw [State.complete_flags, hfl, BitVec.or_zero]
    refine ⟨hres, hflags, ?_⟩
    rw [← hflags, ← hfl']
    rfl
  · have hclass := classOf_nanConvert F G a
    have hback : convertResult G F m' s.tp (convertResult F G m s.tp a).res =
        nanConvert G F (nanConvert F G a).res := by
      rw [convertResult_of_isNaN hnan, convertResult_of_isNaN (by simp [isNaN, hclass])]
    have hquiet : (nanConvert G F (nanConvert F G a).res).fl = 0#7 := by simp [nanConvert_fl, isSNaN, hclass]
    refine ⟨?_, ?_, ?_⟩
    · exact (congrArg Completion.res hback).trans (nanConvert_back hp ha hnan)
    · rw [← nanConvert_fl F G, ← convertResult_of_isNaN (m := m) (tp := s.tp) hnan]
      rfl
    · exact (congrArg _ ((congrArg Completion.fl hback).trans hquiet)).trans BitVec.or_zero

end Sys2Proof.Machine

/-! PROOFS. Comparisons: the six relations are those of the extended real values (R170 to R176), a NaN operand makes each of
them false (R178), and `ISSNAN` reads its answer off the fields of the register (R177). -/

namespace Sys2Proof

/-! ### The relation and the kind of a compare -/

/-- The column `rel` of R178's table. -/
def CmpOp.rel (F : Fmt) : CmpOp → Word → Word → Bool
  | .eq => Machine.relEq F
  | .eqs => Machine.relEq F
  | .leq => Machine.relLe F
  | .les => Machine.relLe F
  | .ltq => Machine.relLt F
  | .lts => Machine.relLt F

/-- The column `signalling` of R178's table. -/
def CmpOp.signalling : CmpOp → Bool
  | .eq => false
  | .eqs => false
  | .leq => false
  | .les => true
  | .ltq => false
  | .lts => true

theorem CmpOp.signalling_iff {op : CmpOp} : op.signalling = true ↔ op = .les ∨ op = .lts := by
  cases op <;> decide

namespace Machine

variable {F : Fmt} {s : State} {op : CmpOp} {x a b : Word} {M1 M2 e1 e2 : Int} {u v : ExtVal}

theorem runBinary_ready {f : Word → Word → Completion} (ha : OperandOk F s.opa) (hb : OperandOk F s.opb) :
    runBinary F f s = .next (s.complete (f (operandOf F s.opa) (operandOf F s.opb))) :=
  runBinary_eq_next.mpr ⟨ha, hb, rfl⟩

/-- The six compares are one operation, of the relation and the kind the table gives (R178). -/
theorem exec_cmp {i : Instr} (hi : i.toCmd = .cmp op F) (ha : OperandOk F s.opa) (hb : OperandOk F s.opb) :
    exec i s = .next
      (s.complete (compareResult F (op.rel F) op.signalling (operandOf F s.opa) (operandOf F s.opb))) := by
  rw [exec_of_toCmd hi]
  cases op <;> exact runBinary_ready ha hb

/-! ### The order on values -/

/-- Alignment at the smaller exponent keeps the order (R170). -/
theorem scaledLt_iff : scaledLt M1 e1 M2 e2 = true ↔ (M1 : ℝ) * 2 ^ e1 < M2 * 2 ^ e2 := by
  have hpos : (0 : ℝ) < 2 ^ min e1 e2 := by positivity
  rw [← aligned_term (min_le_left e1 e2), ← aligned_term (min_le_right e1 e2), mul_lt_mul_iff_left₀ hpos,
    Int.cast_lt, scaledLt, decide_eq_true_iff]

/-- The extended real number an exact value is (R170). -/
noncomputable def ExtVal.toEReal : ExtVal → EReal
  | .negInf => ⊥
  | .finite M e => ((M * 2 ^ e : ℝ) : EReal)
  | .posInf => ⊤

theorem ExtVal.lt_iff : u.lt v = true ↔ u.toEReal < v.toEReal := by
  cases u <;> cases v
  case finite.finite => exact scaledLt_iff.trans EReal.coe_lt_coe_iff.symm
  all_goals simp [ExtVal.lt, ExtVal.toEReal, -EReal.coe_mul]

theorem toEReal_valOf (F : Fmt) (x : Word) : (valOf F x).toEReal = extValueOf F x := by
  unfold valOf extValueOf
  split
  · split <;> rfl
  · exact congrArg Real.toEReal (signedSig_mul_eq_valueOf F x)

theorem relLt_iff : relLt F a b = true ↔ extValueOf F a < extValueOf F b := by
  rw [relLt, ExtVal.lt_iff, toEReal_valOf, toEReal_valOf]

theorem relLe_iff : relLe F a b = true ↔ extValueOf F a ≤ extValueOf F b := by
  rw [← not_lt, ← relLt_iff, relLe, relLt, Bool.not_eq_true', Bool.not_eq_true]

theorem relEq_iff : relEq F a b = true ↔ extValueOf F a = extValueOf F b := by
  rw [relEq, Bool.and_eq_true, relLe_iff, relLe_iff, le_antisymm_iff]

/-! ### Numbers and NaNs -/

theorem compareResult_of_numbers {rel : Word → Word → Bool} {signalling : Bool} (ha : isNaN F a = false)
    (hb : isNaN F b = false) : compareResult F rel signalling a b = ⟨boolResult (rel a b), 0#7, .invalidate⟩ := by
  simp [compareResult, ha, hb, special_eq]

theorem compareResult_of_nan {rel : Word → Word → Bool} {signalling : Bool}
    (h : isNaN F a = true ∨ isNaN F b = true) : compareResult F rel signalling a b =
      ⟨0#128, raiseIf (isSNaN F a || isSNaN F b || signalling) .invalid, .invalidate⟩ :=
  if_pos (Bool.or_eq_true _ _ ▸ h)

/-- Settles O54: each relation is the order of the values the operands stand for. -/
theorem comparesOrderTheExtendedValues : Obligations.ComparesOrderTheExtendedValues := by
  intro i s op F holds hi ha hb a b hna hnb hholds
  have hrel : op.rel F a b = holds := by
    rw [Bool.eq_iff_iff, hholds]
    cases op with
    | eq => exact relEq_iff
    | eqs => exact relEq_iff
    | leq => exact relLe_iff
    | les => exact relLe_iff
    | ltq => exact relLt_iff
    | lts => exact relLt_iff
  rw [exec_cmp hi ha hb, compareResult_of_numbers hna hnb, hrel, boolResult]

/-- Settles O55: the compare ends before its relation, and raises `Invalid` by its kind. -/
theorem comparesWithNansAreFalse : Obligations.ComparesWithNansAreFalse := by
  intro i s op F hi ha hb a b hnan
  rw [exec_cmp hi ha hb, compareResult_of_nan hnan, raiseIf]
  simp only [Bool.or_eq_true, CmpOp.signalling_iff, or_assoc]
  rfl

/-! ### The signaling-NaN predicate -/

/-- With the largest exponent field, the fraction tells the class (R83, R85). -/
theorem classOf_of_hasMaxExponent (h : HasMaxExponent F x) : classOf F x =
    if fracOf F x = 0 then .inf else if (fracOf F x).testBit (F.t - 1) then .qnan else .snan := by
  obtain ⟨hexp, hlead⟩ := h
  have hmax : F.expMax ≠ 0 := by cases F <;> decide
  cases F
  case x80 =>
    simp only [classOf, Fmt.explicitLead, if_true, classX80, sigOf_x80_testBit_63, hexp, hlead rfl, hmax, if_false,
      Bool.not_true, Bool.false_eq_true]
    rfl
  all_goals simp [classOf, Fmt.explicitLead, classHidden, hexp, hmax]

/-- A canonical pattern is a signaling NaN by its exponent field and fraction alone (R83, R85). -/
theorem isSNaN_iff (h : classOf F x ≠ .nonCanonical) : isSNaN F x = true ↔
    bexpOf F x = F.expMax ∧ (fracOf F x).testBit (F.t - 1) = false ∧ fracOf F x ≠ 0 := by
  by_cases hexp : bexpOf F x = F.expMax
  · have hlead : F = .x80 → x.toNat.testBit 63 = true := by
      rintro rfl
      exact (classOf_ne_nonCanonical_iff.mp h rfl).mpr (hexp ▸ by decide)
    rw [isSNaN, beq_iff_eq, classOf_of_hasMaxExponent ⟨hexp, hlead⟩]
    split_ifs with hfrac hquiet
    · simp [hfrac]
    · simp [hquiet]
    · simp [hexp, hfrac, hquiet]
  · have hnan : isSNaN F x = true → isNaN F x = true := fun hs => (Bool.or_eq_true _ _).mpr (.inr hs)
    exact iff_of_false (fun hs => hexp (hasMaxExponent_of_isNaN (hnan hs)).1) fun hs => hexp hs.1

theorem toNat_operandOf (F : Fmt) (r : MarkedReg) : (operandOf F r).toNat = r.val.toNat % 2 ^ F.k :=
  toNat_ofNat_of_lt F.k_le (Nat.mod_lt _ (Nat.two_pow_pos _))

theorem bexpOf_operandOf (F : Fmt) (r : MarkedReg) : bexpOf F (operandOf F r) = r.val.toNat / 2 ^ F.sigW % 2 ^ F.w := by
  rw [bexpOf, toNat_operandOf, F.k_eq, add_assoc, pow_add, Nat.mod_mul_right_div_self,
    Nat.mod_mod_of_dvd _ (pow_dvd_pow 2 (Nat.le_succ _))]

theorem fracOf_operandOf (F : Fmt) (r : MarkedReg) : fracOf F (operandOf F r) = r.val.toNat % 2 ^ F.t := by
  rw [fracOf, toNat_operandOf, Nat.mod_mod_of_dvd _ (pow_dvd_pow 2 (by have := F.k_eq; have := F.t_le_sigW; omega))]

/-- The quiet bit of an operand is a bit of its register (R83). -/
theorem quietBit_operandOf (F : Fmt) (r : MarkedReg) :
    (fracOf F (operandOf F r)).testBit (F.t - 1) = false ↔ r.val.toNat / 2 ^ (F.t - 1) % 2 = 0 := by
  have ht : F.t - 1 < F.t := by cases F <;> decide
  rw [fracOf_operandOf, Nat.testBit_mod_two_pow, decide_eq_true ht, Bool.true_and, Nat.testBit_eq_decide_div_mod_eq,
    decide_eq_false_iff_not, Nat.mod_two_not_eq_one]

/-- Settles O56: the operand's fields are bits of the register, and the result raises nothing. -/
theorem issnanTestsTheQuietBit : Obligations.IssnanTestsTheQuietBit := by
  intro i s F hi hw x
  obtain ⟨-, -, hrefused⟩ := misusedCommandsAreRefusedByName i s F 1
  rw [hi] at hrefused
  refine ⟨fun hc => ?_, (hrefused nofun rfl).1 hw⟩
  have hsnan := isSNaN_iff hc
  rw [bexpOf_operandOf, quietBit_operandOf, fracOf_operandOf] at hsnan
  exact ⟨_, (exec_of_toCmd hi s).trans (runUnary_ready ⟨hw, hc⟩), BitVec.or_zero, rfl, if_congr hsnan rfl rfl⟩

end Machine
end Sys2Proof

/-! PROOFS. The scaled result: what `SCALED` delivers (R186), when it is refused (R187), and that with scale 0 it gives back the
result of the command that left the record (R188). -/

namespace Sys2Proof.Machine

variable {F G : Fmt} {m : RMode} {tp : BitVec 1} {sign st : Bool} {N be q k : Nat} {e : Int} {a b c v w : Word}
  {s t : State} {r : Raw} {cmd : Cmd} {d : Completion}

/-! ### The scale -/

/-- The scale is the low 32 bits of `OPA`, read in two's complement (R186). -/
theorem scaleOf_eq_toInt (v : Word) : scaleOf v = (v.extractLsb' 0 32).toInt := by
  have hlow : (v.extractLsb' 0 32).toNat = v.toNat % 2 ^ 32 := by simp
  rw [scaleOf, intValue_eq, BitVec.toInt_eq_toNat_cond, hlow]
  simp only [IntType.n, true_or, true_and]
  split <;> split <;> omega

/-- The scale depends on 32 bits of `OPA` only (R64). -/
theorem scaleOf_congr (h : v.toNat % 2 ^ 32 = w.toNat % 2 ^ 32) : scaleOf v = scaleOf w :=
  intValue_congr (T := .i32) h

theorem scaleOf_eq_zero (h : v.toNat % 2 ^ 32 = 0) : scaleOf v = 0 := scaleOf_congr (w := 0#128) h

/-! ### Refusals -/

/-- Settles O58: with a scale to read, each refusal is the first test of `SCALED` that fails. -/
theorem scaledRefusals : Obligations.ScaledRefusals := by
  refine ⟨fun i s F hi hw => ?_, by decide⟩
  have hrun : exec i s = runScaled F s := exec_of_toCmd hi s
  rw [← scaleOf_eq_toInt, hrun, runScaled, withWritten_ready hw]
  refine ⟨fun hvalid => ?_, fun hvalid hfmt => ?_, fun hvalid hfmt hrange => ?_⟩
  · rw [hvalid]; rfl
  · rw [if_pos hvalid, if_neg hfmt]
  · have hout : ¬(F.emin ≤ scaledExp s.raw (scaleOf s.opa.val) ∧ scaledExp s.raw (scaleOf s.opa.val) ≤ F.emax) := by
      unfold scaledExp
      omega
    rw [if_pos hvalid, if_pos hfmt, if_neg hout]

/-! ### The value delivered -/

/-- A significand of `p` bits under the exponent field of a finite value, 0 excluded, is a normal number (R83, R85). -/
theorem classOf_packNormal (hlo : 2 ^ (F.p - 1) ≤ q) (hhi : q < 2 ^ F.p) (hbe0 : 1 ≤ be) (hbemax : be < F.expMax) :
    classOf F (packNormal F sign be q) = .normal := by
  have hw : be < 2 ^ F.w := hbemax.trans_le (Nat.sub_le _ _)
  have hpat : IsPattern F (packNormal F sign be q) :=
    isPattern_packNormal (by rintro rfl; exact ⟨⟨hbe0, hw⟩, hlo, hhi⟩)
  rw [(finite_classes hpat.2).1, packNormal, bexpOf_pack, Nat.mod_eq_of_lt hw]
  omega

/-- A well-formed record's significand is one of `p` bits followed by zeros (R28). -/
theorem Raw.Wf.exists_significand (h : r.Wf) (hvalid : r.valid = true) : ∃ q, r.sig.toNat = q * 2 ^ (127 - r.fmt.p) ∧
    2 ^ (r.fmt.p - 1) ≤ q ∧ q < 2 ^ r.fmt.p := by
  obtain ⟨hlo, hhi, hlow, -, -⟩ := h hvalid
  have hp := r.fmt.p_eq
  have hp' := r.fmt.p_le
  obtain ⟨q, hq⟩ := Nat.dvd_of_mod_eq_zero hlow
  rw [mul_comm] at hq
  rw [hq, show 126 = r.fmt.p - 1 + (127 - r.fmt.p) by omega, pow_add] at hlo
  rw [hq, show 127 = r.fmt.p + (127 - r.fmt.p) by omega, pow_add,
    Nat.add_sub_cancel_left] at hhi
  exact ⟨q, hq, Nat.le_of_mul_le_mul_right hlo (Nat.two_pow_pos _), Nat.lt_of_mul_lt_mul_right hhi⟩

/-- The repacked record is a normal number: the record's value times `2^scale` (R186). -/
theorem scaledPattern_value {scale : Int} (h : r.Wf) (hvalid : r.valid = true)
    (hmin : r.fmt.emin ≤ scaledExp r scale) (hmax : scaledExp r scale ≤ r.fmt.emax) :
    classOf r.fmt (scaledPattern r.fmt r scale) = .normal ∧
      valueOf r.fmt (scaledPattern r.fmt r scale) = recordValue r * 2 ^ scale := by
  obtain ⟨q, hsig, hlo, hhi⟩ := h.exists_significand hvalid
  have hp := r.fmt.p_eq
  have hp' := r.fmt.p_le
  have hexpMax := r.fmt.expMax_eq
  have hpat : scaledPattern r.fmt r scale = packNormal r.fmt r.sign (scaledExp r scale + r.fmt.bias).toNat q := by
    rw [scaledPattern, hsig, Nat.mul_div_cancel _ (Nat.two_pow_pos _)]
  unfold Fmt.emin at hmin
  unfold Fmt.emax at hmax
  have hbe : ((scaledExp r scale + r.fmt.bias).toNat : Int) = scaledExp r scale + r.fmt.bias := by omega
  rw [hpat]
  refine ⟨classOf_packNormal hlo hhi (by omega) (by omega), ?_⟩
  rw [(encodes_packNormal hlo hhi (by omega) (by omega)).value, hbe, add_sub_cancel_right, recordValue, hsig, scaledExp]
  have htwo : (2 : ℝ) ^ 126 = 2 ^ (127 - r.fmt.p) * 2 ^ r.fmt.t := by
    rw [← pow_add]
    congr 1
    omega
  rw [htwo, zpow_sub₀ two_ne_zero, zpow_add₀ two_ne_zero, zpow_natCast, Nat.cast_mul, Nat.cast_pow, Nat.cast_ofNat]
  field_simp

/-- Settles O57: what completes is the repacked record, and its value is the record's. -/
theorem scaledMultipliesTheRecord : Obligations.ScaledMultipliesTheRecord := by
  intro i s F hi hw hrec hwf scale
  obtain ⟨hvalid, hfmt, hmin, hmax⟩ := hrec
  subst hfmt
  have hrun : exec i s = runScaled s.raw.fmt s := exec_of_toCmd hi s
  refine ⟨_, hrun.trans (runScaled_eq_next.mpr ⟨hw, hvalid, rfl, ⟨hmin, hmax⟩, rfl⟩), ?_, ?_⟩
  · simp [State.complete]
  · rw [show scale = scaleOf s.opa.val from (scaleOf_eq_toInt _).symm]
    exact scaledPattern_value hwf hvalid hmin hmax

/-! ### A carry to the least normal exponent -/

/-- A cut one place further up: the guard bit is the last bit kept before, and the sticky takes what was discarded (R101). -/
theorem cutAt_add_one {n : Nat} (hn : 1 ≤ n) : cutAt N ((n : Int) + 1) st =
    ⟨(cutAt N n st).q / 2, (cutAt N n st).q % 2 == 1, (cutAt N n st).g || (cutAt N n st).s⟩ := by
  have hlow : N % 2 ^ n = N % 2 ^ (n - 1) + 2 ^ (n - 1) * (N / 2 ^ (n - 1) % 2) := by
    rw [← Nat.mod_pow_succ, Nat.sub_add_cancel hn]
  have hdiscarded : (N % 2 ^ n != 0) = (N / 2 ^ (n - 1) % 2 == 1 || N % 2 ^ (n - 1) != 0) := by
    rw [hlow, Bool.eq_iff_iff]
    obtain hbit | hbit := Nat.mod_two_eq_zero_or_one (N / 2 ^ (n - 1)) <;> simp [hbit]
  have hsucc : cutAt N ((n + 1 : Nat) : Int) st = ⟨N / 2 ^ (n + 1), N / 2 ^ n % 2 == 1, N % 2 ^ n != 0 || st⟩ :=
    cutAt_of_pos (Nat.le_add_left 1 n) N st
  rw [← Nat.cast_succ, hsucc, cutAt_of_pos hn, hdiscarded, pow_succ, Nat.div_div_eq_div_mul, Bool.or_assoc]

/-- A magnitude below the even `2 * (k + 1)` that rounds up to it rounds up to `k + 1` when it is halved, in the same mode:
what is left of a half is more than one half. -/
theorem roundInt_halved {c : Cut} (hc : c.q = 2 * k + 1) (h : (roundInt m sign c).q = c.q + 1) :
    (roundInt m sign ⟨c.q / 2, c.q % 2 == 1, c.g || c.s⟩).q = k + 1 := by
  have hinc : (roundInt m sign c).incremented = true := by
    by_contra hnot
    rw [roundInt_q, if_neg hnot] at h
    omega
  have hix : (c.g || c.s) = true := roundInt_incremented_inexact hinc
  have hhalf : c.q / 2 = k := by omega
  have hodd : c.q % 2 = 1 := by omega
  rw [roundInt_q, hix, hhalf, hodd, if_pos]
  cases m <;> simp_all [roundInt]

/-- Rounding to `p` bits moves the exponent only by a carry out of a cut (R103). -/
theorem carry_of_Eu_ne (h : (roundUnbounded F m sign N e st).Eu ≠ unroundedExp N e) :
    (roundUnbounded F m sign N e st).Eu = unroundedExp N e + 1 ∧ (roundUnbounded F m sign N e st).qu = 2 ^ (F.p - 1) ∧
      (roundInt m sign (cutAt N ((bitlen N : Int) - F.p) st)).q = 2 ^ F.p := by
  unfold roundUnbounded at h ⊢
  dsimp only at h ⊢
  split at h
  · rename_i hq
    rw [if_pos hq]
    exact ⟨rfl, rfl, hq⟩
  · exact absurd rfl h

theorem cutAt_precision_q_lt : (cutAt N ((bitlen N : Int) - F.p) st).q < 2 ^ F.p := by
  have hlt := cutAt_q_lt (st := st) (lt_two_pow_bitlen N) (sh := (bitlen N : Int) - F.p) (by omega)
  rwa [sub_sub_cancel, Int.toNat_natCast] at hlt

theorem roundUnbounded_qu_lt : (roundUnbounded F m sign N e st).qu < 2 ^ F.p := by
  have hq := cutAt_precision_q_lt (F := F) (N := N) (st := st)
  have hle := roundInt_q_le m sign (cutAt N ((bitlen N : Int) - F.p) st)
  have hp := F.p_eq
  unfold roundUnbounded
  dsimp only
  split
  · exact Nat.pow_lt_pow_right (by decide) (by omega)
  · exact lt_of_le_of_ne (hle.trans hq) ‹_›

/-- A magnitude just below the least normal number that rounds up to it at precision `p` also does so on the subnormal grid,
whose step is twice as wide (R103, R108). -/
theorem subnormal_q_of_carry (hE : unroundedExp N e + 1 = F.emin)
    (hcarry : (roundInt m sign (cutAt N ((bitlen N : Int) - F.p) st)).q = 2 ^ F.p) :
    (roundInt m sign (cutAt N (F.emin - F.p + 1 - e) st)).q = 2 ^ (F.p - 1) := by
  have hp := F.two_pow_p
  have hpos := Nat.two_pow_pos F.t
  have hq := cutAt_precision_q_lt (F := F) (N := N) (st := st)
  have hle := roundInt_q_le m sign (cutAt N ((bitlen N : Int) - F.p) st)
  by_cases hexact : (bitlen N : Int) - F.p ≤ 0
  · rw [cutAt_of_nonpos st hexact] at hcarry hq
    rw [roundInt_exact] at hcarry
    exact absurd hcarry hq.ne
  · obtain ⟨n, hn⟩ := Int.eq_ofNat_of_zero_le (not_le.mp hexact).le
    have hsh : F.emin - F.p + 1 - e = (n : Int) + 1 := by
      unfold unroundedExp at hE
      omega
    rw [hn] at hcarry hq hle
    rw [hsh, cutAt_add_one (by omega), roundInt_halved (k := 2 ^ F.t - 1) (by omega) (by omega), F.p_eq,
      Nat.add_sub_cancel]
    omega

/-! ### The record repacked -/

/-- A rounding whose exponent is a normal one delivers the rounded significand at that exponent, although the exact magnitude
may lie below the normal numbers (R107, R108). -/
theorem roundPack_res_of_inRange (hmin : F.emin ≤ (roundUnbounded F m sign N e st).Eu)
    (hmax : (roundUnbounded F m sign N e st).Eu ≤ F.emax) : (roundPack F m tp sign N e st).res =
      packNormal F sign ((roundUnbounded F m sign N e st).Eu + F.bias).toNat (roundUnbounded F m sign N e st).qu := by
  by_cases hE : F.emin ≤ unroundedExp N e
  · simp only [roundPack, if_pos hE, if_neg (not_lt.mpr hmax), deliverNormal]
  · obtain ⟨hEu, hqu, hcarry⟩ := carry_of_Eu_ne (fun heq => hE (heq ▸ hmin))
    have hleast : unroundedExp N e + 1 = F.emin := by omega
    have hbe : (F.emin + F.bias).toNat = 1 := by rw [Fmt.emin, sub_add_cancel]; rfl
    simp only [roundPack, if_neg hE, deliverSubnormal, subnormal_q_of_carry hleast hcarry, if_true, hEu, hqu, hleast, hbe]

/-- Neither `Overflow` nor `Tiny`: the rounding with unbounded exponent stayed among the normal exponents, under either
policy (R104, R106). -/
theorem roundUnbounded_inRange (h : (roundPack F m tp sign N e st).fl &&& 0x44#7 = 0#7) :
    F.emin ≤ (roundUnbounded F m sign N e st).Eu ∧ (roundUnbounded F m sign N e st).Eu ≤ F.emax := by
  obtain ⟨hge, hle⟩ := roundUnbounded_Eu_bounds (F := F) (m := m) (sign := sign) (N := N) (e := e) (st := st)
  refine ⟨?_, ?_⟩
  · by_contra hlt
    have htiny : isTiny F tp (unroundedExp N e) (roundUnbounded F m sign N e st).Eu = true := by
      unfold isTiny
      split <;> rw [decide_eq_true_eq] <;> omega
    have hbit : ∀ fl : BitVec 7, (raiseIf true .tiny ||| fl) &&& 0x44#7 ≠ 0#7 := by decide
    simp only [roundPack, htiny] at h
    exact hbit _ h
  · by_contra hgt
    have hexp : F.emin ≤ F.emax := by cases F <;> decide
    rw [(roundPack_of_overflow (by omega) (not_le.mp hgt)).2] at h
    obtain ⟨-, hfl⟩ | ⟨-, hfl⟩ := deliverOverflow_cases F m sign <;> rw [hfl] at h <;> exact absurd h (by decide)

/-- The record is of format `F`, its exponent is a normal one, and repacked without scaling it is `w` (R186, R187). -/
structure Raw.RepacksTo (F : Fmt) (r : Raw) (w : Word) : Prop where
  fmt : r.fmt = F
  inRange : F.emin ≤ scaledExp r 0 ∧ scaledExp r 0 ≤ F.emax
  pattern : scaledPattern F r 0 = w

/-- The rounding pass's record repacks to the rounded significand at its own exponent, which fits the record's 32 bits
(R105). -/
theorem recordOf_repacksTo {u : Unbounded} {tiny : Bool} (hqu : u.qu < 2 ^ F.p) (hmin : F.emin ≤ u.Eu)
    (hmax : u.Eu ≤ F.emax) :
    (recordOf F sign u tiny).RepacksTo F (packNormal F sign (u.Eu + F.bias).toNat u.qu) := by
  have hexp : scaledExp (recordOf F sign u tiny) 0 = u.Eu := by
    have hbound : F.bias ≤ 16383 := by cases F <;> decide
    unfold Fmt.emin at hmin
    unfold Fmt.emax at hmax
    rw [scaledExp, add_zero, recordOf, BitVec.toInt_ofInt, Int.bmod_eq_of_le] <;> omega
  have hsig : (recordOf F sign u tiny).sig.toNat = u.qu * 2 ^ (127 - F.p) := by
    refine toNat_ofNat_of_lt (k := F.p + (127 - F.p)) (by have := F.p_le; omega) ?_
    rw [pow_add]
    exact Nat.mul_lt_mul_of_pos_right hqu (Nat.two_pow_pos _)
  refine ⟨rfl, hexp.symm ▸ ⟨hmin, hmax⟩, ?_⟩
  rw [scaledPattern, hexp, hsig, Nat.mul_div_cancel _ (Nat.two_pow_pos _)]
  rfl

/-- If the completion leaves a record and raises neither `Overflow` nor `Tiny`, the record repacks to the result (R188). -/
def Completion.Repacks (F : Fmt) (d : Completion) : Prop :=
  ∀ old : Raw, (d.record.apply old).valid = true → d.fl &&& 0x44#7 = 0#7 → (d.record.apply old).RepacksTo F d.res

@[simp] theorem repacks_special {v : Word} : (special v).Repacks F := nofun

@[simp] theorem repacks_specialRaising {f : Flag} {v : Word} : (specialRaising f v).Repacks F := nofun

@[simp] theorem repacks_invalidOp : (invalidOp G).Repacks F := nofun

@[simp] theorem repacks_nanPath {xs : List Word} : (nanPath G xs).Repacks F := nofun

@[simp] theorem repacks_nanConvert : (nanConvert G F a).Repacks F := nofun

/-- The rounding pass delivers what its record repacks to, unless it overflows or is tiny (R188). -/
@[simp] theorem repacks_roundPack : (roundPack F m tp sign N e st).Repacks F := by
  intro _ _ hfl
  obtain ⟨hmin, hmax⟩ := roundUnbounded_inRange hfl
  rw [roundPack_res_of_inRange hmin hmax]
  exact recordOf_repacksTo roundUnbounded_qu_lt hmin hmax

@[simp] theorem repacks_sumResult {s1 s2 : Bool} {M1 e1 M2 e2 : Int} : (sumResult F m tp s1 s2 M1 e1 M2 e2).Repacks F := by
  unfold sumResult
  extract_lets
  split_ifs <;> simp

@[simp] theorem repacks_addNumbers : (addNumbers F m tp a b).Repacks F := by
  unfold addNumbers
  extract_lets
  split_ifs <;> simp

theorem repacks_addResult : (addResult F m tp a b).Repacks F := by
  unfold addResult
  split_ifs <;> simp

theorem repacks_subResult : (subResult F m tp a b).Repacks F := by
  unfold subResult
  split_ifs <;> simp

theorem repacks_mulResult : (mulResult F m tp a b).Repacks F := by
  unfold mulResult
  extract_lets
  split_ifs <;> simp

theorem repacks_divResult : (divResult F m tp a b).Repacks F := by
  unfold divResult
  extract_lets
  split_ifs <;> simp

theorem repacks_remResult : (remResult F m tp a b).Repacks F := by
  unfold remResult
  extract_lets
  split_ifs <;> simp

theorem repacks_sqrtResult : (sqrtResult F m tp a).Repacks F := by
  unfold sqrtResult
  extract_lets
  split_ifs <;> simp

theorem repacks_fmaResult : (fmaResult F m tp a b c).Repacks F := by
  unfold fmaResult
  extract_lets
  split_ifs <;> simp

theorem repacks_convertResult (hp : G.p < F.p) : (convertResult F G m tp a).Repacks G := by
  rw [convertResult, if_neg hp.not_gt]
  unfold narrowResult
  split_ifs <;> simp

theorem arith_repacks {op : ArithOp} (h : runCmd (.arith op F) s = .next t) :
    ∃ d, t = s.complete d ∧ d.Repacks F := by
  cases op with
  | add => exact runBinaryRounding_leaves h fun _ _ _ _ _ _ => repacks_addResult
  | sub => exact runBinaryRounding_leaves h fun _ _ _ _ _ _ => repacks_subResult
  | mul => exact runBinaryRounding_leaves h fun _ _ _ _ _ _ => repacks_mulResult
  | div => exact runBinaryRounding_leaves h fun _ _ _ _ _ _ => repacks_divResult
  | rem => exact runBinaryRounding_leaves h fun _ _ _ _ _ _ => repacks_remResult
  | sqrt => exact runUnaryRounding_leaves h fun _ _ _ _ => repacks_sqrtResult
  | fma => exact runTernaryRounding_leaves h fun _ _ _ _ _ _ _ _ => repacks_fmaResult

/-- The commands that write a record are the arithmetic ones and the narrowings (R67). -/
theorem runCmd_repacks (hw : cmd.writesRecord = true) (hf : cmd.resultFmt = some F) (h : runCmd cmd s = .next t) :
    ∃ d, t = s.complete d ∧ d.Repacks F := by
  cases cmd with
  | arith op G =>
    obtain rfl : G = F := Option.some.inj hf
    exact arith_repacks h
  | f2f E G =>
    obtain rfl : G = F := Option.some.inj hf
    rw [runCmd_f2f] at h
    exact runUnaryRounding_leaves h fun _ _ _ _ => repacks_convertResult (of_decide_eq_true hw)
  | _ => exact absurd hw Bool.false_ne_true

/-- Settles O59: equal records and scales are repacked alike; and a record kept without `Overflow` or `Tiny` is repacked to
the command's own result. -/
theorem scaledPurity : Obligations.ScaledPurity := by
  refine ⟨fun i s s' t t' F hi h h' hraw hscale => ?_, fun i j s t F x hw hf hj hflags h hvalid hfl hx => ?_⟩
  · rw [exec_of_toCmd hi] at h h'
    obtain ⟨-, -, -, -, rfl⟩ := runScaled_eq_next.mp h
    obtain ⟨-, -, -, -, rfl⟩ := runScaled_eq_next.mp h'
    simp only [State.complete_res, hraw, scaleOf_congr hscale]
  · rw [exec_eq_runCmd] at h
    obtain ⟨d, rfl, hd⟩ := runCmd_repacks hw hf h
    rw [State.complete_flags, hflags, BitVec.zero_or] at hfl
    obtain ⟨hfmt, hrange, hpattern⟩ := hd s.raw hvalid hfl
    have hscale := scaleOf_eq_zero hx
    rw [← hscale] at hrange hpattern
    exact ⟨_, (exec_of_toCmd hj _).trans (runScaled_eq_next.mpr ⟨rfl, hvalid, hfmt, hrange, rfl⟩),
      congrArg (MarkedReg.mk · true) hpattern⟩

end Sys2Proof.Machine

/-! PROOFS. Steps and commands seen from outside: with no host operation waiting nothing changes (R202), the instances of a
system do not touch each other (R207), and a command goes on exactly when it is no misuse (R200, R209). -/

namespace Sys2Proof.Machine

variable {F : Fmt} {s : State} {c : Cmd} {n : Nat}

/-- Settles O6. -/
theorem nothingChangesBetweenAccesses : Obligations.NothingChangesBetweenAccesses := fun _ => step_idle

/-! ### Instances -/

theorem System.stepAt_eq_next {k : Nat} {sys sys' : System} :
    System.stepAt k sys = .next sys' ↔ ∃ s t, sys[k]? = some s ∧ step s = .next t ∧ sys.set k t = sys' := by
  unfold System.stepAt
  cases sys[k]? with
  | none => simp
  | some s => cases hs : step s <;> simp [hs]

/-- Settles O17: a step of instance `k` replaces entry `k` of the list by that instance's own next state, and replacements
of two entries commute. -/
theorem instancesAreIndependent : Obligations.InstancesAreIndependent := by
  refine ⟨fun sys sys' k h => ?_, fun sys a b j k hjk ha hb => ?_⟩
  · obtain ⟨s, t, hs, hstep, rfl⟩ := System.stepAt_eq_next.mp h
    have hk : k < sys.length := (List.getElem?_eq_some_iff.mp hs).1
    exact ⟨⟨s, t, hs, hstep, List.getElem?_set_self hk⟩, fun j hjk => List.getElem?_set_ne hjk.symm⟩
  · obtain ⟨sk, tk, hsk, hstepk, rfl⟩ := System.stepAt_eq_next.mp ha
    obtain ⟨sj, tj, hsj, hstepj, rfl⟩ := System.stepAt_eq_next.mp hb
    rw [List.getElem?_set_ne hjk.symm] at hsj
    refine ⟨sys.set j tj, System.stepAt_eq_next.mpr ⟨sj, tj, hsj, hstepj, rfl⟩,
      System.stepAt_eq_next.mpr ⟨sk, tk, ?_, hstepk, List.set_comm tj tk hjk⟩⟩
    rwa [List.getElem?_set_ne hjk]

/-! ### When a command goes on -/

/-- Nothing faults (R200): a command that does not go on is refused. -/
theorem refused_of_not_next {o : Host.Outcome State Fault Refusal} (h : ¬∃ t, o = .next t) : ∃ r, o = .refused r := by
  cases o with
  | next t => exact absurd ⟨t, rfl⟩ h
  | fault f => exact nomatch f
  | refused r => exact ⟨r, rfl⟩

/-- A command that uses `RM` goes on when the mode is not reserved and, whichever mode it is, the rest goes on. -/
theorem withMode_next_iff {k : RMode → Host.Outcome State Fault Refusal} {p : Prop}
    (h : ∀ m, (∃ t, k m = .next t) ↔ p) : (∃ t, withMode s k = .next t) ↔ s.rm.toNat < 6 ∧ p := by
  simp only [withMode_eq_next, ← ofBits_isSome_iff, Option.isSome_iff_exists]
  rw [exists_comm]
  simp only [exists_and_left, h, exists_and_right]

theorem runUnary_next_iff {f : Word → Completion} : (∃ t, runUnary F f s = .next t) ↔ OperandOk F s.opa := by
  simp [runUnary_eq_next, OperandOk, operandOf]

theorem runBinary_next_iff {f : Word → Word → Completion} :
    (∃ t, runBinary F f s = .next t) ↔ OperandOk F s.opa ∧ OperandOk F s.opb := by
  simp [runBinary_eq_next, OperandOk, operandOf]

theorem runUnaryRounding_next_iff {f : RMode → BitVec 1 → Word → Completion} :
    (∃ t, runUnaryRounding F f s = .next t) ↔ s.rm.toNat < 6 ∧ OperandOk F s.opa :=
  withMode_next_iff fun _ => runUnary_next_iff

theorem runBinaryRounding_next_iff {f : RMode → BitVec 1 → Word → Word → Completion} :
    (∃ t, runBinaryRounding F f s = .next t) ↔ s.rm.toNat < 6 ∧ OperandOk F s.opa ∧ OperandOk F s.opb :=
  withMode_next_iff fun _ => runBinary_next_iff

theorem runTernaryRounding_next_iff {f : RMode → BitVec 1 → Word → Word → Word → Completion} :
    (∃ t, runTernaryRounding F f s = .next t) ↔
      s.rm.toNat < 6 ∧ OperandOk F s.opa ∧ OperandOk F s.opb ∧ OperandOk F s.opc :=
  withMode_next_iff fun _ => by simp [withOperand_eq_next, OperandOk, operandOf, and_assoc]

theorem runIntRounding_next_iff {T : IntType} {f : RMode → BitVec 1 → Int → Completion} :
    (∃ t, runIntRounding T f s = .next t) ↔ s.rm.toNat < 6 ∧ s.opa.written = true :=
  withMode_next_iff fun _ => by simp [withWritten_eq_next]

theorem runScaled_next_iff : (∃ t, runScaled F s = .next t) ↔ s.opa.written = true ∧ RecordOk F s := by
  simp [runScaled_eq_next, RecordOk]

/-! ### Misuse -/

theorem operandsOk_of_floats (hf : c.floatOperands = some (F, n)) :
    OperandsOk c s ↔ OperandOk F s.opa ∧ (2 ≤ n → OperandOk F s.opb) ∧ (3 ≤ n → OperandOk F s.opc) := by
  rw [OperandsOk, hf]

theorem operandsOk_of_no_floats (hf : c.floatOperands = none) : OperandsOk c s ↔ s.opa.written = true := by
  rw [OperandsOk, hf]

/-- `SCALED` alone takes neither a mode nor a float operand (R64, R67). -/
theorem exists_eq_scaled (hm : c.usesRM = false) (hf : c.floatOperands = none) : ∃ F, c = .scaled F := by
  cases c with
  | scaled F => exact ⟨F, rfl⟩
  | arith | i2f | f2i | f2f => cases hm
  | f2iRmm | cmp | issnan => cases hf

theorem commandOk_scaled_iff : CommandOk (.scaled F) s ↔ s.opa.written = true ∧ RecordOk F s := by
  simp [CommandOk, operandsOk_of_no_floats (c := .scaled F) rfl, Cmd.usesRM]

/-- Only `SCALED` asks for a record (R187). -/
theorem commandOk_iff_of_ne_scaled (hc : ∀ F, c ≠ .scaled F) :
    CommandOk c s ↔ (c.usesRM = true → s.rm.toNat < 6) ∧ OperandsOk c s := by
  simp [CommandOk, hc]

theorem runCmd_next_iff_of_ne_scaled (hc : ∀ F, c ≠ .scaled F) : (∃ t, runCmd c s = .next t) ↔ CommandOk c s := by
  rw [commandOk_iff_of_ne_scaled hc]
  cases shape c with
  | unary F f run mode floats => simp [run, runUnary_next_iff, mode, operandsOk_of_floats floats]
  | binary F f run mode floats => simp [run, runBinary_next_iff, mode, operandsOk_of_floats floats]
  | unaryRounding F f run mode floats => simp [run, runUnaryRounding_next_iff, mode, operandsOk_of_floats floats]
  | binaryRounding F f run mode floats => simp [run, runBinaryRounding_next_iff, mode, operandsOk_of_floats floats]
  | ternaryRounding F f run mode floats => simp [run, runTernaryRounding_next_iff, mode, operandsOk_of_floats floats]
  | intRounding T f run mode floats => simp [run, runIntRounding_next_iff, mode, operandsOk_of_no_floats floats]
  | scaled F run mode floats =>
    obtain ⟨G, hG⟩ := exists_eq_scaled mode floats
    exact absurd hG (hc G)

/-- A command goes on exactly when it is no misuse (R209). -/
theorem runCmd_next_iff (c : Cmd) (s : State) : (∃ t, runCmd c s = .next t) ↔ CommandOk c s := by
  by_cases hc : ∃ F, c = .scaled F
  · obtain ⟨F, rfl⟩ := hc
    exact runScaled_next_iff.trans commandOk_scaled_iff.symm
  · exact runCmd_next_iff_of_ne_scaled (not_exists.mp hc)

/-- Settles O18: a command goes on exactly when it is no misuse, every command that goes on ends in `State.complete`, and
there is no fault. -/
theorem commandsCompleteUnlessMisused : Obligations.CommandsCompleteUnlessMisused := by
  intro i s
  rw [← runCmd_next_iff, ← exec_eq_runCmd]
  refine ⟨fun ⟨t, h⟩ => ?_, refused_of_not_next⟩
  obtain ⟨d, rfl⟩ := exec_next h
  exact ⟨_, h, rfl, and_or_self s.flags d.fl⟩

end Sys2Proof.Machine

/-! PROOFS. The tininess policy `TP`: the rounding pass alone asks for it, and of what the pass leaves only `Underflow`,
`Tiny` and `RAW.Tiny` depend on the answer (R104, R221). -/

namespace Sys2Proof.Machine

variable {F G : Fmt} {T : IntType} {m : RMode} {tp tp' : BitVec 1} {sign st : Bool} {N : Nat} {e : Int} {a b c : Word}
  {s : State} {d d' : Completion}

/-! ### Results that differ in tininess only -/

/-- The completions agree but for the flags `Underflow` (0x02) and `Tiny` (0x40) and the record's `Tiny`. -/
structure Completion.SameButTininess (d d' : Completion) : Prop where
  res : d'.res = d.res
  fl : d'.fl &&& 0x3D#7 = d.fl &&& 0x3D#7
  record : ∀ old, d'.record.apply old = { d.record.apply old with tiny := (d'.record.apply old).tiny }

@[simp] theorem Completion.SameButTininess.refl (d : Completion) : d.SameButTininess d := ⟨rfl, rfl, fun _ => rfl⟩

theorem Completion.SameButTininess.invalidated (h : d.SameButTininess d') :
    Completion.SameButTininess { d with record := .invalidate } { d' with record := .invalidate } :=
  ⟨h.res, h.fl, fun _ => rfl⟩

theorem raise_tiny_masked : ∀ (tiny : Bool) (fl : BitVec 7), (raiseIf tiny .tiny ||| fl) &&& 0x3D#7 = fl &&& 0x3D#7 := by
  decide

theorem raise_underflow_masked :
    ∀ (under : Bool) (fl : BitVec 7), (fl ||| raiseIf under .underflow) &&& 0x3D#7 = fl &&& 0x3D#7 := by
  decide

/-- Tininess picks no branch of the delivery: it is a flag, a part of `Underflow` and a field of the record (R104, R105,
R108). -/
@[simp] theorem sameButTininess_roundPack :
    (roundPack F m tp sign N e st).SameButTininess (roundPack F m tp' sign N e st) where
  res := by
    simp only [roundPack]
    split_ifs <;> rfl
  fl := by
    simp only [roundPack, raise_tiny_masked]
    split_ifs
    · rfl
    · rfl
    · simp only [deliverSubnormal, raise_underflow_masked]
  record _ := rfl

@[simp] theorem sameButTininess_sumResult {s1 s2 : Bool} {M1 e1 M2 e2 : Int} :
    (sumResult F m tp s1 s2 M1 e1 M2 e2).SameButTininess (sumResult F m tp' s1 s2 M1 e1 M2 e2) := by
  unfold sumResult
  extract_lets
  split_ifs <;> simp

@[simp] theorem sameButTininess_addNumbers : (addNumbers F m tp a b).SameButTininess (addNumbers F m tp' a b) := by
  unfold addNumbers
  extract_lets
  split_ifs <;> simp

theorem sameButTininess_addResult : (addResult F m tp a b).SameButTininess (addResult F m tp' a b) := by
  unfold addResult
  split_ifs <;> simp

theorem sameButTininess_subResult : (subResult F m tp a b).SameButTininess (subResult F m tp' a b) := by
  unfold subResult
  split_ifs <;> simp

theorem sameButTininess_mulResult : (mulResult F m tp a b).SameButTininess (mulResult F m tp' a b) := by
  unfold mulResult
  extract_lets
  split_ifs <;> simp

theorem sameButTininess_divResult : (divResult F m tp a b).SameButTininess (divResult F m tp' a b) := by
  unfold divResult
  extract_lets
  split_ifs <;> simp

theorem sameButTininess_remResult : (remResult F m tp a b).SameButTininess (remResult F m tp' a b) := by
  unfold remResult
  extract_lets
  split_ifs <;> simp

theorem sameButTininess_sqrtResult : (sqrtResult F m tp a).SameButTininess (sqrtResult F m tp' a) := by
  unfold sqrtResult
  extract_lets
  split_ifs <;> simp

theorem sameButTininess_fmaResult : (fmaResult F m tp a b c).SameButTininess (fmaResult F m tp' a b c) := by
  unfold fmaResult
  extract_lets
  split_ifs <;> simp

/-- `I2F` drops the record of its rounding pass (R113). -/
theorem sameButTininess_i2fResult {v : Int} : (i2fResult F m tp v).SameButTininess (i2fResult F m tp' v) := by
  unfold i2fResult
  split
  · exact .refl _
  · exact sameButTininess_roundPack.invalidated

/-- A widening rounds nothing (R153), a narrowing once (R154). -/
theorem sameButTininess_convertResult : (convertResult F G m tp a).SameButTininess (convertResult F G m tp' a) := by
  unfold convertResult
  split
  · exact .refl _
  · unfold narrowResult
    split_ifs <;> simp

/-! ### Commands that look at `TP` for tininess only -/

/-- Under another `TP` the run goes on as well, and what it writes differs in tininess only (R221). -/
def TpOnlyInTininess (run : State → Host.Outcome State Fault Refusal) : Prop :=
  ∀ (s t : State) (tp : BitVec 1), run s = .next t → ∃ u, run { s with tp := tp } = .next u ∧
    u.res = t.res ∧ u.flags &&& 0x3D#7 = t.flags &&& 0x3D#7 ∧ u.raw = { t.raw with tiny := u.raw.tiny }

/-- What two completions agree in, the states they end in agree in (R33). -/
theorem Completion.SameButTininess.complete (h : d.SameButTininess d') :
    (State.complete { s with tp := tp } d').res = (s.complete d).res ∧
      (State.complete { s with tp := tp } d').flags &&& 0x3D#7 = (s.complete d).flags &&& 0x3D#7 ∧
      (State.complete { s with tp := tp } d').raw =
        { (s.complete d).raw with tiny := (State.complete { s with tp := tp } d').raw.tiny } := by
  obtain ⟨hres, hfl, hrecord⟩ := h
  refine ⟨congrArg (MarkedReg.mk · true) hres, ?_, hrecord s.raw⟩
  simp only [State.complete_flags, BitVec.and_comm _ 0x3D#7, BitVec.and_or_distrib_left] at hfl ⊢
  rw [hfl]

theorem tpOnlyInTininess_unary {f : RMode → BitVec 1 → Word → Completion}
    (hf : ∀ m tp tp' a, (f m tp a).SameButTininess (f m tp' a)) : TpOnlyInTininess (runUnaryRounding F f) := by
  intro s t tp h
  obtain ⟨m, hm, h⟩ := runUnaryRounding_eq_next.mp h
  obtain ⟨hw, ha, rfl⟩ := runUnary_eq_next.mp h
  exact ⟨_, runUnaryRounding_eq_next.mpr ⟨m, hm, runUnary_eq_next.mpr ⟨hw, ha, rfl⟩⟩, (hf _ _ _ _).complete⟩

theorem tpOnlyInTininess_binary {f : RMode → BitVec 1 → Word → Word → Completion}
    (hf : ∀ m tp tp' a b, (f m tp a b).SameButTininess (f m tp' a b)) : TpOnlyInTininess (runBinaryRounding F f) := by
  intro s t tp h
  obtain ⟨m, hm, h⟩ := runBinaryRounding_eq_next.mp h
  obtain ⟨ha, hb, rfl⟩ := runBinary_eq_next.mp h
  exact ⟨_, runBinaryRounding_eq_next.mpr ⟨m, hm, runBinary_eq_next.mpr ⟨ha, hb, rfl⟩⟩, (hf _ _ _ _ _).complete⟩

theorem tpOnlyInTininess_ternary {f : RMode → BitVec 1 → Word → Word → Word → Completion}
    (hf : ∀ m tp tp' a b c, (f m tp a b c).SameButTininess (f m tp' a b c)) :
    TpOnlyInTininess (runTernaryRounding F f) := by
  intro s t tp h
  obtain ⟨m, hm, ha, hb, hc, rfl⟩ := runTernaryRounding_eq_next.mp h
  exact ⟨_, runTernaryRounding_eq_next.mpr ⟨m, hm, ha, hb, hc, rfl⟩, (hf _ _ _ _ _ _).complete⟩

theorem tpOnlyInTininess_int {f : RMode → BitVec 1 → Int → Completion}
    (hf : ∀ m tp tp' v, (f m tp v).SameButTininess (f m tp' v)) : TpOnlyInTininess (runIntRounding T f) := by
  intro s t tp h
  obtain ⟨m, hm, hw, rfl⟩ := runIntRounding_eq_next.mp h
  exact ⟨_, runIntRounding_eq_next.mpr ⟨m, hm, hw, rfl⟩, (hf _ _ _ _).complete⟩

theorem tpOnlyInTininess_arith (op : ArithOp) : TpOnlyInTininess (runCmd (.arith op F)) := by
  cases op with
  | add => exact tpOnlyInTininess_binary fun _ _ _ _ _ => sameButTininess_addResult
  | sub => exact tpOnlyInTininess_binary fun _ _ _ _ _ => sameButTininess_subResult
  | mul => exact tpOnlyInTininess_binary fun _ _ _ _ _ => sameButTininess_mulResult
  | div => exact tpOnlyInTininess_binary fun _ _ _ _ _ => sameButTininess_divResult
  | rem => exact tpOnlyInTininess_binary fun _ _ _ _ _ => sameButTininess_remResult
  | sqrt => exact tpOnlyInTininess_unary fun _ _ _ _ => sameButTininess_sqrtResult
  | fma => exact tpOnlyInTininess_ternary fun _ _ _ _ _ _ => sameButTininess_fmaResult

/-- The commands that use `RM` are the arithmetic ones and the conversions but `F2I_RMM` (R67). -/
theorem tpOnlyInTininess_runCmd {cmd : Cmd} (h : cmd.usesRM = true) : TpOnlyInTininess (runCmd cmd) := by
  cases cmd with
  | arith op F => exact tpOnlyInTininess_arith op
  | i2f T F => exact tpOnlyInTininess_int fun _ _ _ _ => sameButTininess_i2fResult
  | f2i F T => exact tpOnlyInTininess_unary fun _ _ _ _ => .refl _
  | f2f F G =>
    rw [runCmd_f2f]
    exact tpOnlyInTininess_unary fun _ _ _ _ => sameButTininess_convertResult
  | _ => exact absurd h Bool.false_ne_true

/-- Settles O25: a command that does not use `RM` does not look at `TP` either, and any other hands it to the rounding
pass. -/
theorem tininessPolicyTouchesOnlyTinyAndUnderflow : Obligations.TininessPolicyTouchesOnlyTinyAndUnderflow := by
  intro i s t tp h
  cases hrm : i.toCmd.usesRM with
  | false => exact ⟨_, commandsWithoutRmIgnoreTheEnvironment i s t s.rm tp hrm h, rfl, rfl, rfl⟩
  | true =>
    rw [exec_eq_runCmd] at h ⊢
    exact tpOnlyInTininess_runCmd hrm s t tp h

end Sys2Proof.Machine
